-- ==== Sys2Proof/Word.lean ====
section
/-!
DEFINITION. The widths the spec gives the block's numbers (spec/00_scope.md R6 to R8).
A Word is 32 bits (`WORD_BITS`), an operand 24 (`OPERAND_BITS`), an opcode 8 (`OPCODE_BITS`).
The signed reading `sval` of R7 is `BitVec.toInt`, the unsigned reading `uval` is `BitVec.toNat`,
and bit 0 is the least significant bit (R8), as in `BitVec`.
-/

namespace Sys2Proof

/-- R7: a Word is a vector of 32 bits. -/
abbrev Word := BitVec 32

/-- R52, R90: the operand field, a 24-bit unsigned data address. -/
abbrev Operand := BitVec 24

/-- R90: the opcode field, 8 bits. -/
abbrev Opcode := BitVec 8

end Sys2Proof
end

