-- ==== Sys2Proof/Config.lean ====
section
/-!
DEFINITION. The implementation parameters of spec/00_scope.md R6, and the free functions that stand
for the parameters the spec leaves OPEN (spec/92_eei_decisions.md D13, D14).

`Config` is plain data and rides in `State` unchanged (R41), so that every statement over all states
is a statement over all configurations. The two OPEN parameters that are functions cannot be data:
where `Config` says `unspecified`, the machine uses the body-less constants below, of which nothing
can be proved. `PROG`, `PLEN` and `MEM_INIT` are launch inputs: see `State.launch`.
-/

namespace Sys2Proof

/-- R26, R162: one value of the OPEN `FLOAT` type, held as a code. Which number a code stands for is
the instantiation's affair, except that code 0 is the `FLOAT` zero `0.0F` (notes/assumptions/6.md,
DESIGN CHOICE: any value type that hardware holds can be numbered so). Under `FloatType.binary32` the
code is the 32-bit IEEE pattern. -/
structure FloatVal where
  code : Nat
deriving DecidableEq, Repr, Inhabited

/-- R162: `0.0F`. -/
def FloatVal.zero : FloatVal := ⟨0⟩

/-- R162, D14: which instantiation of `FLOAT` the machine has. -/
inductive FloatType where
  /-- OPEN, as the spec leaves it: every operation is a free function. -/
  | unspecified
  /-- The reference instantiation R162 names: IEEE 754 binary32, round to nearest even. -/
  | binary32
deriving DecidableEq, Repr

/-- R160, D13: how the Numeric Codec extracts its exponent. -/
inductive CodecExp where
  /-- OPEN, as the spec leaves it: a free function of the Word. -/
  | unspecified
  /-- A window of `len` bits from bit `lo` up, read as an unsigned number and added to `base`: the
  shape the source describes, with every number a parameter. `window 127 0 0` is the constant 127 of
  spec/95_test_vectors.md section 6. -/
  | window (base : Int) (lo len : Nat)
deriving DecidableEq, Repr

/-- R6, D6: `REG_INIT`. -/
inductive RegInit where
  | zero
  | unwritten
deriving DecidableEq, Repr

/-- R6, D5: `UNASSIGNED_OPCODE_POLICY`. -/
inductive UnassignedPolicy where
  | fault
  | nop
deriving DecidableEq, Repr

/-- R6: the implementation parameters that are data. -/
structure Config where
  /-- `MEM_WORDS`, any value 1 to 2^24 (D2). -/
  memWords : Nat
  /-- `CACHE_LINES`, any value from 1 up (D1, OPEN). -/
  cacheLines : Nat
  /-- `COUNTER_WIDTH` (D7). -/
  counterWidth : Nat
  regInit : RegInit
  unassignedPolicy : UnassignedPolicy
  codecExp : CodecExp
  float : FloatType
deriving DecidableEq, Repr

/-- The configuration `State.reset` is launched with: R6's values where it gives one. DESIGN CHOICE
(notes/assumptions/1.md, unsafe): `CACHE_LINES` is OPEN, and 4 is only the value the spec's own test
vectors use; no statement rests on it. The codec exponent and the float type stay open. -/
def Config.reference : Config where
  memWords := 524288
  cacheLines := 4
  counterWidth := 32
  regInit := .zero
  unassignedPolicy := .fault
  codecExp := .unspecified
  float := .unspecified

/-- D13, OPEN: the codec's exponent extraction. A free value: no body. -/
opaque Config.openCodecExp : Word → Int

/-- D14, OPEN: rounding of an exact dyadic rational into `FLOAT`. A free value: no body. -/
opaque Config.openToFloat : Dyadic → FloatVal

/-- D14, OPEN: `fadd`. A free value: no body. -/
opaque Config.openFadd : FloatVal → FloatVal → FloatVal

/-- D14, OPEN: `fsub`. A free value: no body. -/
opaque Config.openFsub : FloatVal → FloatVal → FloatVal

/-- D14, OPEN: `fmul`. A free value: no body. -/
opaque Config.openFmul : FloatVal → FloatVal → FloatVal

/-- D14, OPEN: `fdiv`. A free value: no body. -/
opaque Config.openFdiv : FloatVal → FloatVal → FloatVal

end Sys2Proof
end

