-- ==== Sys2Proof/Machine/Codec.lean ====
section
/-!
DEFINITION. The Numeric Codec (spec/43_float.md R160, R161): an implicit leading 1, a mantissa whose
bit 0 weighs most, an exponent biased by 127, no sign and no special case. The exponent's extraction
is a parameter (D13).
-/

namespace Sys2Proof.Machine

/-- 2^e, exactly. -/
def pow2 (e : Int) : Dyadic := Dyadic.ofIntWithPrec 1 (-e)

/-- R160: the weight bit `i` of a Word adds to the mantissa, `w[i] * 2^-(i+1)`. -/
def mantBit (w : Word) (i : Nat) : Dyadic := if w.getLsbD i then pow2 (-(i + 1)) else 0

/-- R160: `mant(w)`, the sum over bits 0 to 22. -/
def mant (w : Word) : Dyadic := (List.range 23).foldl (fun acc i => acc + mantBit w i) 0

/-- R160: `CODEC_EXP(w)`, under a configuration. -/
def codecExp (cfg : Config) (w : Word) : Int :=
  match cfg.codecExp with
  | .unspecified => Config.openCodecExp w
  | .window base lo len => base + ((w.toNat >>> lo) % 2 ^ len : Nat)

/-- R160: the exact value a Word decodes to, `(1 + mant(w)) * 2^(CODEC_EXP(w) - 127)`. -/
def codecValue (cfg : Config) (w : Word) : Dyadic := (1 + mant w) * pow2 (codecExp cfg w - 127)

end Sys2Proof.Machine
end

