-- ==== Sys2Proof/Machine/Float.lean ====
section
/-!
DEFINITION. The `FLOAT` parameter (spec/43_float.md R162): `toFloat` and the four operations, either
free (OPEN, D14) or those of the reference instantiation, IEEE 754 binary32 with round to nearest
even. R162 names that instantiation without describing it, so its arithmetic below is PRESUMED from
IEEE 754 (notes/assumptions/8.md); nothing uses it unless a configuration asks for it.
-/

namespace Sys2Proof.Machine

/-- What a binary32 pattern stands for: a finite value is plus or minus `sig * 2^exp`. -/
inductive Binary32 where
  | nan
  | inf (neg : Bool)
  | finite (neg : Bool) (sig : Nat) (exp : Int)
deriving DecidableEq, Repr

/-- The sign bit in place. -/
def b32Sign (neg : Bool) : Nat := if neg then 2 ^ 31 else 0

/-- The pattern of an infinity. -/
def b32Inf (neg : Bool) : FloatVal := ⟨b32Sign neg + 0x7F800000⟩

/-- The one pattern results use for NaN (PRESUMED: IEEE 754 leaves the payload open). -/
def b32Nan : FloatVal := ⟨0x7FC00000⟩

/-- A pattern taken apart: sign, 8 exponent bits, 23 fraction bits. -/
def b32Unpack (x : FloatVal) : Binary32 :=
  let neg := x.code / 2 ^ 31 % 2 == 1
  let e : Nat := x.code / 2 ^ 23 % 2 ^ 8
  let f : Nat := x.code % 2 ^ 23
  if e = 255 then (if f = 0 then .inf neg else .nan)
  else if e = 0 then .finite neg f (-149)
  else .finite neg (2 ^ 23 + f) ((e : Int) - 150)

/-- A natural quotient rounded to nearest, ties to even. -/
def roundHalfEven (n d : Nat) : Nat :=
  let q := n / d
  let r := n % d
  if 2 * r < d then q else if d < 2 * r then q + 1 else q + q % 2

/-- `num / den * 2^e` as a quotient of naturals. -/
def scaleRatio (num den : Nat) (e : Int) : Nat × Nat :=
  if 0 ≤ e then (num * 2 ^ e.toNat, den) else (num, den * 2 ^ (-e).toNat)

/-- The floor of the base-2 logarithm of `num / den`, both positive. -/
def floorLog2 (num den : Nat) : Int :=
  let k : Int := (Nat.log2 num : Int) - (Nat.log2 den : Int)
  let nd := scaleRatio num den (-k)
  if nd.2 ≤ nd.1 then k else k - 1

/-- The binary32 pattern nearest to plus or minus `num / den`, ties to even, subnormals kept, too
large a value becoming an infinity. -/
def b32Round (neg : Bool) (num den : Nat) : FloatVal :=
  if num = 0 then ⟨b32Sign neg⟩
  else
    let e := max (floorLog2 num den) (-126)
    let nd := scaleRatio num den (23 - e)
    ⟨b32Sign neg + min ((e + 126).toNat * 2 ^ 23 + roundHalfEven nd.1 nd.2) 0x7F800000⟩

/-- An exact signed value `n * 2^e` rounded; `negZero` is the sign of an exact zero. -/
def b32OfInt (negZero : Bool) (n : Int) (e : Int) : FloatVal :=
  let nd := scaleRatio n.natAbs 1 e
  if n = 0 then ⟨b32Sign negZero⟩ else b32Round (decide (n < 0)) nd.1 nd.2

/-- R162: `toFloat` of binary32. -/
def b32OfDyadic : Dyadic → FloatVal
  | .zero => ⟨0⟩
  | .ofOdd n k _ => b32OfInt false n (-k)

/-- A signed significand. -/
def b32Signed (neg : Bool) (sig : Nat) : Int := if neg then -(sig : Int) else sig

/-- Addition of binary32. -/
def b32Add (x y : FloatVal) : FloatVal :=
  match b32Unpack x, b32Unpack y with
  | .nan, _ => b32Nan
  | _, .nan => b32Nan
  | .inf a, .inf b => if a = b then b32Inf a else b32Nan
  | .inf a, _ => b32Inf a
  | _, .inf b => b32Inf b
  | .finite a m e, .finite b n f =>
    let g := min e f
    b32OfInt (a && b)
      (b32Signed a (m * 2 ^ (e - g).toNat) + b32Signed b (n * 2 ^ (f - g).toNat)) g

/-- A pattern with its sign bit turned. -/
def b32Neg (x : FloatVal) : FloatVal :=
  ⟨if x.code / 2 ^ 31 % 2 = 1 then x.code - 2 ^ 31 else x.code + 2 ^ 31⟩

/-- Subtraction of binary32. -/
def b32Sub (x y : FloatVal) : FloatVal := b32Add x (b32Neg y)

/-- Multiplication of binary32. -/
def b32Mul (x y : FloatVal) : FloatVal :=
  match b32Unpack x, b32Unpack y with
  | .nan, _ => b32Nan
  | _, .nan => b32Nan
  | .inf a, .inf b => b32Inf (a != b)
  | .inf a, .finite b n _ => if n = 0 then b32Nan else b32Inf (a != b)
  | .finite a m _, .inf b => if m = 0 then b32Nan else b32Inf (a != b)
  | .finite a m e, .finite b n f =>
    let nd := scaleRatio (m * n) 1 (e + f)
    b32Round (a != b) nd.1 nd.2

/-- Division of binary32. -/
def b32Div (x y : FloatVal) : FloatVal :=
  match b32Unpack x, b32Unpack y with
  | .nan, _ => b32Nan
  | _, .nan => b32Nan
  | .inf _, .inf _ => b32Nan
  | .inf a, .finite b _ _ => b32Inf (a != b)
  | .finite a _ _, .inf b => ⟨b32Sign (a != b)⟩
  | .finite a m e, .finite b n f =>
    if n = 0 then (if m = 0 then b32Nan else b32Inf (a != b))
    else
      let nd := scaleRatio m n (e - f)
      b32Round (a != b) nd.1 nd.2

/-- R162: `toFloat`. -/
def toFloat (cfg : Config) (d : Dyadic) : FloatVal :=
  match cfg.float with
  | .unspecified => Config.openToFloat d
  | .binary32 => b32OfDyadic d

/-- R162: `fadd`. -/
def fadd (cfg : Config) (x y : FloatVal) : FloatVal :=
  match cfg.float with
  | .unspecified => Config.openFadd x y
  | .binary32 => b32Add x y

/-- R162: `fsub`. -/
def fsub (cfg : Config) (x y : FloatVal) : FloatVal :=
  match cfg.float with
  | .unspecified => Config.openFsub x y
  | .binary32 => b32Sub x y

/-- R162: `fmul`. -/
def fmul (cfg : Config) (x y : FloatVal) : FloatVal :=
  match cfg.float with
  | .unspecified => Config.openFmul x y
  | .binary32 => b32Mul x y

/-- R162: `fdiv`. -/
def fdiv (cfg : Config) (x y : FloatVal) : FloatVal :=
  match cfg.float with
  | .unspecified => Config.openFdiv x y
  | .binary32 => b32Div x y

/-- R160: `decode(w)`, the Numeric Codec. -/
def decodeFloat (cfg : Config) (w : Word) : FloatVal := toFloat cfg (codecValue cfg w)

end Sys2Proof.Machine
end

