-- ==== Sys2Proof/Syntax.lean ====
section
/-!
DEFINITION. The 15 instructions of spec/30_encoding.md R94, one constructor a row of
spec/opcode_table.json, and the assembler line of R99. Every instruction has the one operand field,
an address that no opcode ignores (R93, R97).
-/

namespace Sys2Proof

/-- R94: the mnemonics of the opcode map. -/
inductive Mnemonic where
  | load | loadIo | storeIo | print | add | subtract | addFloat | subtractFloat
  | loadMq | mqToAc | multiply | divide | multiplyFloat | divideFloat | store
deriving DecidableEq, Repr

/-- R94: the instructions, each with its operand address `a` (R12). -/
inductive Instr where
  | load (a : Operand)
  | loadIo (a : Operand)
  | storeIo (a : Operand)
  | print (a : Operand)
  | add (a : Operand)
  | subtract (a : Operand)
  | addFloat (a : Operand)
  | subtractFloat (a : Operand)
  | loadMq (a : Operand)
  | mqToAc (a : Operand)
  | multiply (a : Operand)
  | divide (a : Operand)
  | multiplyFloat (a : Operand)
  | divideFloat (a : Operand)
  | store (a : Operand)
deriving DecidableEq, Repr

/-- The row of R94 an instruction belongs to. -/
def Instr.mnemonic : Instr → Mnemonic
  | .load _ => .load
  | .loadIo _ => .loadIo
  | .storeIo _ => .storeIo
  | .print _ => .print
  | .add _ => .add
  | .subtract _ => .subtract
  | .addFloat _ => .addFloat
  | .subtractFloat _ => .subtractFloat
  | .loadMq _ => .loadMq
  | .mqToAc _ => .mqToAc
  | .multiply _ => .multiply
  | .divide _ => .divide
  | .multiplyFloat _ => .multiplyFloat
  | .divideFloat _ => .divideFloat
  | .store _ => .store

/-- R93: the operand address every instruction carries. -/
def Instr.operand : Instr → Operand
  | .load a => a
  | .loadIo a => a
  | .storeIo a => a
  | .print a => a
  | .add a => a
  | .subtract a => a
  | .addFloat a => a
  | .subtractFloat a => a
  | .loadMq a => a
  | .mqToAc a => a
  | .multiply a => a
  | .divide a => a
  | .multiplyFloat a => a
  | .divideFloat a => a
  | .store a => a

/-- The instruction of a row with a given operand. -/
def Instr.ofMnemonic : Mnemonic → Operand → Instr
  | .load => .load
  | .loadIo => .loadIo
  | .storeIo => .storeIo
  | .print => .print
  | .add => .add
  | .subtract => .subtract
  | .addFloat => .addFloat
  | .subtractFloat => .subtractFloat
  | .loadMq => .loadMq
  | .mqToAc => .mqToAc
  | .multiply => .multiply
  | .divide => .divide
  | .multiplyFloat => .multiplyFloat
  | .divideFloat => .divideFloat
  | .store => .store

/-- R99: an assembler line, `MNEMONIC a` with a decimal operand. There is no other form (R100). -/
structure AsmLine where
  mnemonic : Mnemonic
  operand : Nat
deriving DecidableEq, Repr

end Sys2Proof
end

