-- ==== Sys2Proof/WellFormed.lean ====
section
/-!
DEFINITION. The checks the spec puts on what reaches the block from outside: a configuration (R6), a
program (R23, D24), a feed value (R98, D25) and an assembler line (R99). An `Instr` needs no check:
its operand is a 24-bit field by type, and no bit pattern of the field is illegal in itself (R97).
-/

namespace Sys2Proof

/-- R6: `MEM_WORDS` is 1 to 2^24 and `CACHE_LINES` is at least 1. -/
def Config.wellFormed (c : Config) : Bool :=
  decide (1 ≤ c.memWords) && decide (c.memWords ≤ 2 ^ 24) && decide (1 ≤ c.cacheLines)

/-- R6, R23 (D24): a program holds at most 2^31 - 1 words. -/
def progWellFormed (prog : List Word) : Bool :=
  decide (prog.length ≤ 2 ^ 31 - 1)

/-- R98 (D25): a feed integer is in -2^31 to 2^31 - 1. -/
def feedWellFormed (n : Int) : Bool :=
  decide (-(2 ^ 31) ≤ n) && decide (n ≤ 2 ^ 31 - 1)

/-- R99: the operand of an assembler line is in 0 to 2^24 - 1. -/
def AsmLine.wellFormed (l : AsmLine) : Bool :=
  decide (l.operand ≤ 2 ^ 24 - 1)

end Sys2Proof
end

