-- ==== Sys2Proof/Decode.lean ====
section
/-!
DEFINITION. The one instruction format of spec/30_encoding.md: decode (R90 to R97), and after it the
encoder, the assembler line (R99) and the decimal feed value (R98).
-/

namespace Sys2Proof

/-- R92: `OPC <- IR[31:24]`, unsigned (D27). -/
def opcField (w : Word) : Opcode := w.extractLsb' 24 8

/-- R92, R93: `OPND <- IR[23:0]`, neither sign-extended nor scaled. -/
def opndField (w : Word) : Operand := w.extractLsb' 0 24

/-- R94: the complete opcode map. -/
def opcodeMap : List (Opcode × Mnemonic) :=
  [(1, .load), (2, .loadIo), (3, .storeIo), (4, .print), (5, .add), (6, .subtract), (7, .addFloat),
   (8, .subtractFloat), (9, .loadMq), (10, .mqToAc), (11, .multiply), (12, .divide),
   (13, .multiplyFloat), (14, .divideFloat), (33, .store)]

/-- R94, R96: the row of an opcode value, none for the 241 unassigned ones. -/
def mnemonicOf? (opc : Opcode) : Option Mnemonic :=
  (opcodeMap.find? fun row => row.1 == opc).map fun row => row.2

/-- Why a word is no instruction. -/
inductive DecodeError where
  /-- R96: the opcode value is not in the map. -/
  | unassignedOpcode (opc : Opcode)
deriving DecidableEq, Repr

/-- R92, R94, R96: decoding a whole word. Total: every word is one of the 15 instructions or names
its unassigned opcode. -/
def decode (w : Word) : Except DecodeError Instr :=
  match mnemonicOf? (opcField w) with
  | some m => .ok (Instr.ofMnemonic m (opndField w))
  | none => .error (.unassignedOpcode (opcField w))

/-- R94: the opcode value of a row. -/
def opcodeOf : Mnemonic → Opcode
  | .load => 0x01
  | .loadIo => 0x02
  | .storeIo => 0x03
  | .print => 0x04
  | .add => 0x05
  | .subtract => 0x06
  | .addFloat => 0x07
  | .subtractFloat => 0x08
  | .loadMq => 0x09
  | .mqToAc => 0x0A
  | .multiply => 0x0B
  | .divide => 0x0C
  | .multiplyFloat => 0x0D
  | .divideFloat => 0x0E
  | .store => 0x21

/-- R99: `enc(MNEMONIC, a) = (OPC << 24) | a`. -/
def encode (i : Instr) : Word :=
  (opcodeOf i.mnemonic).zeroExtend 32 <<< 24 ||| i.operand.zeroExtend 32

/-- R99: the word of an assembler line, none where its operand does not fit the field. -/
def assemble (l : AsmLine) : Option Word :=
  if l.wellFormed then some (encode (Instr.ofMnemonic l.mnemonic (BitVec.ofNat 24 l.operand)))
  else none

/-- R98: the Word whose signed value a feed integer is, none for an integer out of range, which is an
input error of the feed (D25). -/
def feedWord (n : Int) : Option Word :=
  if feedWellFormed n then some (BitVec.ofInt 32 n) else none

/-- The instruction the decoder reads from an instruction whose bits are `w`, numbered as
spec/opcode_table.json numbers them: one 32-bit Word (R91), bit 0 the least significant. -/
def decodeTableWord (nbits w : Nat) : Option Instr :=
  if nbits ≤ 32 then (decode (BitVec.ofNat 32 (w % 2 ^ nbits))).toOption else none

end Sys2Proof
end

