-- ==== Sys2Proof/Machine/State.lean ====
section
/-!
DEFINITION. The state of the block (spec/10_state.md R20, "exactly the following"), with the launch
inputs it runs under (R41), its reset (spec/70_reset_and_hazards.md R230 to R232), and the ways a
step of the model can stop.
-/

namespace Sys2Proof.Machine

/-- R32: ENG_STATE. Code 7 is never entered and has no constructor. -/
inductive EngState where
  | fetch | decode | resolve | execute | ioXfer | halted | faulted
deriving DecidableEq, Repr

/-- R32: the 3-bit codes (D17). -/
def EngState.code : EngState → BitVec 3
  | .fetch => 0
  | .decode => 1
  | .resolve => 2
  | .execute => 3
  | .ioXfer => 4
  | .halted => 5
  | .faulted => 6

/-- R36: the causes that the FAULT register can hold. These are the block's own faults: raising one is
a NEXT state of the model (R117), not a stop of it. -/
inductive FaultCause where
  | divideByZero | addressOutOfRange | illegalOpcode | unwrittenRead
deriving DecidableEq, Repr

/-- R36: the 3-bit code of the FAULT register, NONE being 0 (D18). -/
def faultCode : Option FaultCause → BitVec 3
  | none => 0
  | some .divideByZero => 1
  | some .addressOutOfRange => 2
  | some .illegalOpcode => 3
  | some .unwrittenRead => 4

/-- R35: one event of the output stream. -/
inductive Event where
  | int (w : Word)
  | float (f : FloatVal)
  | io (w : Word)
deriving DecidableEq, Repr

/-- R40: the registers that have a written mark. -/
inductive Reg where
  | ac | mq | ioRegister | ioTemp | floatAC | floatMQ
deriving DecidableEq, Repr

/-- R40: WRITTEN, one mark a register. Part of the machine only under REG_INIT = Unwritten; under Zero
nothing reads or writes it. -/
structure Written where
  ac : Bool
  mq : Bool
  ioRegister : Bool
  ioTemp : Bool
  floatAC : Bool
  floatMQ : Bool
deriving DecidableEq, Repr

/-- R40: at reset every mark is 0. -/
def Written.none : Written := ⟨false, false, false, false, false, false⟩

/-- R27: one cache line: V, TAG (the whole address) and DATA. There is no dirty bit. -/
structure Line where
  valid : Bool
  tag : Operand
  data : Word
deriving DecidableEq, Repr

/-- R28: an EMPTY line, its TAG and DATA at their reset value 0 (D8). -/
def Line.empty : Line := ⟨false, 0, 0⟩

/-- R29: the Memory Store, as the pairs (address, Word) of the cells that do not hold 0, addresses
strictly rising. The spec's smallest unit is the Word (R54), so a cell is a Word and no byte order
is invented (notes/assumptions/2.md). -/
abbrev Memory := List (Nat × Word)

/-- R27: the cache line array, as the pairs (slot, line) of the lines that differ from `Line.empty`,
slots strictly rising. -/
abbrev CacheArray := List (Nat × Line)

/-- R20: the state of the block, after the configuration and the program it was launched with (R41:
no step changes these two). -/
structure State where
  /-- R6: the parameters. Not state of the block: constant through a run. -/
  cfg : Config
  /-- R6: PROG, whose length is PLEN. A launch input: constant through a run. -/
  prog : List Word
  /-- R21. -/
  ac : Word
  /-- R22. -/
  mq : Word
  /-- R23: an index into PROG, 32 bits unsigned. -/
  pc : BitVec 32
  /-- R24. -/
  ioRegister : Word
  /-- R25. -/
  ioTemp : Word
  /-- R26. -/
  floatAC : FloatVal
  /-- R26. -/
  floatMQ : FloatVal
  /-- R27: CL. -/
  cl : CacheArray
  /-- R29: MEM. -/
  mem : Memory
  /-- R30: kept below 2^COUNTER_WIDTH by its only writer. -/
  hits : Nat
  /-- R31: kept below 2^COUNTER_WIDTH by its only writer. -/
  misses : Nat
  /-- R32. -/
  engState : EngState
  /-- R33. -/
  ir : Word
  /-- R33. -/
  opc : Opcode
  /-- R33. -/
  opnd : Operand
  /-- R34. -/
  hit : Bool
  /-- R34: a slot index. -/
  slot : Nat
  /-- R35: OUT, the oldest event first. -/
  out : List Event
  /-- R36: FAULT, `none` being NONE. -/
  fault : Option FaultCause
  /-- R40. -/
  written : Written
deriving DecidableEq, Repr

/-- R230, R232: the block as it is constructed under `cfg`, with MEM_INIT copied into MEM and the
program supplied, before its first step. REG_INIT = Zero and Unwritten give the registers the same
contents here; under Unwritten the marks, all 0, keep them from being read (R40). -/
def State.launch (cfg : Config) (memInit : Memory) (prog : List Word) : State where
  cfg := cfg
  prog := prog
  ac := 0
  mq := 0
  pc := 0
  ioRegister := 0
  ioTemp := 0
  floatAC := FloatVal.zero
  floatMQ := FloatVal.zero
  cl := []
  mem := memInit
  hits := 0
  misses := 0
  engState := .fetch
  ir := 0
  opc := 0
  opnd := 0
  hit := false
  slot := 0
  out := []
  fault := none
  written := Written.none

/-- R230: the block right after reset, under the reference configuration, with an all-zero memory
image and no program: both are launch inputs that the interface does not supply
(notes/assumptions/3.md). -/
def State.reset : State := State.launch Config.reference [] []

/-- Why a step of the MODEL stops. Neither is a fault of the block (those are `FaultCause`): the spec
gives the block no transition in these two states. -/
inductive Fault where
  /-- R120: raised by `step` in HALTED, which has no transition: the program ran out and the run is
  over. Safe: the block takes no step there either. -/
  | stuckHalted
  /-- R120: raised by `step` in FAULTED, which has no transition: an earlier step recorded a fault in
  FAULT and the run is over. Safe: the block takes no step there either. -/
  | stuckFaulted
deriving DecidableEq, Repr

/-- Why the model has no meaning for an instruction. -/
inductive Refusal where
  /-- Raised by an arm of `exec` for an instruction without a meaning. No arm raises it: all 15
  instructions have their meaning. Safe. -/
  | notModelled (mnemonic : String)
deriving DecidableEq, Repr

end Sys2Proof.Machine
end

