-- ==== Sys2Proof/Machine/Cells.lean ====
section
/-!
DEFINITION. Sparse arrays: MEM (spec/10_state.md R29) and CL (R27) are both held as a list of
(index, content) pairs in one canonical form, indices strictly rising and no pair that says what an
unlisted index holds anyway, so that equal arrays are equal lists.
-/

namespace Sys2Proof.Machine

/-- The content at an index; `d` is what an unlisted index holds. -/
def Cells.read {α : Type} (d : α) : List (Nat × α) → Nat → α
  | [], _ => d
  | (k, v) :: rest, i => if i = k then v else Cells.read d rest i

/-- Put a pair in front, unless it says what an unlisted index holds. -/
def Cells.cons {α : Type} [DecidableEq α] (d : α) (i : Nat) (v : α) (rest : List (Nat × α)) :
    List (Nat × α) :=
  if v = d then rest else (i, v) :: rest

/-- The array with one index's content replaced, in canonical form. -/
def Cells.write {α : Type} [DecidableEq α] (d : α) : List (Nat × α) → Nat → α → List (Nat × α)
  | [], i, v => Cells.cons d i v []
  | (k, u) :: rest, i, v =>
    if i < k then Cells.cons d i v ((k, u) :: rest)
    else if i = k then Cells.cons d i v rest
    else (k, u) :: Cells.write d rest i v

/-- Every listed index is at least `lo`, the indices rise strictly, and no listed content is `d`. -/
def Cells.wfFrom {α : Type} [DecidableEq α] (d : α) : Nat → List (Nat × α) → Bool
  | _, [] => true
  | lo, (k, v) :: rest => decide (lo ≤ k) && !decide (v = d) && Cells.wfFrom d (k + 1) rest

/-- The canonical form. -/
def Cells.wf {α : Type} [DecidableEq α] (d : α) (m : List (Nat × α)) : Bool := Cells.wfFrom d 0 m

/-- Every listed index is below `n`. -/
def Cells.below {α : Type} (n : Nat) (m : List (Nat × α)) : Bool := m.all fun p => decide (p.1 < n)

/-- What an unlisted cell of MEM reads as. MEM_INIT is a full image (R232), so this is how the list
stands for the image, not a guess at a value. -/
def Memory.default : Word := 0

/-- R10: `MEM[a]`. -/
def Memory.read (m : Memory) (a : Nat) : Word := Cells.read Memory.default m a

/-- R10: `MEM[a] <- v`. -/
def Memory.write (m : Memory) (a : Nat) (v : Word) : Memory := Cells.write Memory.default m a v

/-- The canonical form of MEM. -/
def Memory.wf (m : Memory) : Bool := Cells.wf Memory.default m

/-- R10: `CL[s]`. -/
def CacheArray.read (c : CacheArray) (s : Nat) : Line := Cells.read Line.empty c s

/-- One line of CL replaced. -/
def CacheArray.write (c : CacheArray) (s : Nat) (l : Line) : CacheArray :=
  Cells.write Line.empty c s l

/-- The canonical form of CL. -/
def CacheArray.wf (c : CacheArray) : Bool := Cells.wf Line.empty c

end Sys2Proof.Machine
end

