-- ==== Sys2Proof/Machine/Ops.lean ====
section
/-!
DEFINITION. The named operations over registers, memory and the output stream
(spec/00_scope.md R10), the written marks (spec/10_state.md R40), and the block's one way of taking
a fault (spec/40_execution_cycle.md R117). There is no return from a fault (spec/60_exceptions.md
R212), so none stands beside it.
-/

namespace Sys2Proof.Machine

/-- R40: one register's mark. -/
def Written.get (w : Written) : Reg → Bool
  | .ac => w.ac
  | .mq => w.mq
  | .ioRegister => w.ioRegister
  | .ioTemp => w.ioTemp
  | .floatAC => w.floatAC
  | .floatMQ => w.floatMQ

/-- R40: one register's mark set to 1. -/
def Written.set (w : Written) : Reg → Written
  | .ac => { w with ac := true }
  | .mq => { w with mq := true }
  | .ioRegister => { w with ioRegister := true }
  | .ioTemp => { w with ioTemp := true }
  | .floatAC => { w with floatAC := true }
  | .floatMQ => { w with floatMQ := true }

/-- R40: WRITTEN after a write to `r`. Under REG_INIT = Zero there are no marks to set. -/
def markWritten (p : RegInit) (w : Written) (r : Reg) : Written :=
  match p with
  | .zero => w
  | .unwritten => w.set r

/-- R40, R205: whether the registers `rs` may all be read. Under REG_INIT = Zero no read faults. -/
def State.readable (s : State) (rs : List Reg) : Bool :=
  match s.cfg.regInit with
  | .zero => true
  | .unwritten => rs.all s.written.get

/-- `AC <- w`. -/
def State.setAC (s : State) (w : Word) : State :=
  { s with ac := w, written := markWritten s.cfg.regInit s.written .ac }

/-- `MQ <- w`. -/
def State.setMQ (s : State) (w : Word) : State :=
  { s with mq := w, written := markWritten s.cfg.regInit s.written .mq }

/-- `IORegister <- w`. -/
def State.setIORegister (s : State) (w : Word) : State :=
  { s with ioRegister := w, written := markWritten s.cfg.regInit s.written .ioRegister }

/-- `IOtemp <- w`. -/
def State.setIOtemp (s : State) (w : Word) : State :=
  { s with ioTemp := w, written := markWritten s.cfg.regInit s.written .ioTemp }

/-- `floatAC <- f`. -/
def State.setFloatAC (s : State) (f : FloatVal) : State :=
  { s with floatAC := f, written := markWritten s.cfg.regInit s.written .floatAC }

/-- `floatMQ <- f`. -/
def State.setFloatMQ (s : State) (f : FloatVal) : State :=
  { s with floatMQ := f, written := markWritten s.cfg.regInit s.written .floatMQ }

/-- R10: `emit(e)`. -/
def State.emit (s : State) (e : Event) : State := { s with out := s.out ++ [e] }

/-- R10: `MemRead(a, 1)`. -/
def State.memRead (s : State) (a : Operand) : Word := s.mem.read a.toNat

/-- R10: `MemWrite(a, 1, v)`. -/
def State.memWrite (s : State) (a : Operand) (v : Word) : State :=
  { s with mem := s.mem.write a.toNat v }

/-- R10: `CL[k]`. -/
def State.line (s : State) (k : Nat) : Line := s.cl.read k

/-- `CL[k] <- l`. -/
def State.setLine (s : State) (k : Nat) (l : Line) : State := { s with cl := s.cl.write k l }

/-- R30, R31: a counter one further, modulo 2^COUNTER_WIDTH. -/
def countUp (cfg : Config) (n : Nat) : Nat := (n + 1) % 2 ^ cfg.counterWidth

/-- R117, R201: `raise F`. FAULT takes the cause and the engine stops in FAULTED. PC and the latches
keep the faulting instruction (R206). Nothing else is written: no context is saved, no handler is
entered, no mode changes (R211). -/
def State.raise (s : State) (f : FaultCause) : State :=
  { s with fault := some f, engState := .faulted }

/-- R118: `retire`, the only write to PC during a run. -/
def State.retire (s : State) : State := { s with pc := s.pc + 1, engState := .fetch }

/-- R112: FETCH with no word left: the normal end of a run. -/
def State.halt (s : State) : State := { s with engState := .halted }

end Sys2Proof.Machine
end

