-- ==== Sys2Proof/Machine/Cache.lean ====
section
/-!
DEFINITION. The direct-mapped cache controller and the consistency arbiter (spec/20_memory.md R56 to
R73): slot index, tag compare, hit and miss, fill and eviction with no write-back, and the write
contract that sends a store to both sinks on a miss and to the cache alone on a hit.
-/

namespace Sys2Proof.Machine

/-- R58: the slot of an address, `a mod CACHE_LINES`. -/
def slotOf (cfg : Config) (a : Operand) : Nat := a.toNat % cfg.cacheLines

/-- R52, R56: whether an address names a cell of the Memory Store. -/
def inRange (cfg : Config) (a : Operand) : Bool := decide (a.toNat < cfg.memWords)

/-- R59: whether a line holds an address: it is valid and its whole tag is that address. -/
def Line.holds (l : Line) (a : Operand) : Bool := l.valid && l.tag == a

/-- R59: `hit`, for the address in the cache as it stands. -/
def State.hitsAt (s : State) (a : Operand) : Bool := (s.line (slotOf s.cfg a)).holds a

/-- R62: the line a miss fills a slot with, whatever stood there before. -/
def State.fillLine (s : State) (a : Operand) : Line := ⟨true, a, s.memRead a⟩

/-- R60 to R62, R114: `(HIT, SLOT) <- Resolve(a)`. A hit leaves the slot alone and counts in HITS; a
miss overwrites the whole line from MEM, whatever was resident being lost, and counts in MISSES.
The range check of R56 is the caller's (`resolveOperand`). -/
def State.resolve (s : State) (a : Operand) : State :=
  { s with
    cl := if s.hitsAt a then s.cl else s.cl.write (slotOf s.cfg a) (s.fillLine a)
    hits := if s.hitsAt a then countUp s.cfg s.hits else s.hits
    misses := if s.hitsAt a then s.misses else countUp s.cfg s.misses
    hit := s.hitsAt a
    slot := slotOf s.cfg a }

/-- R63: the resolved value `v`, read from the line the latch SLOT names. -/
def State.resolvedValue (s : State) : Word := (s.line s.slot).data

/-- R65, R66: `StoreThrough(a, v, hit)`. The line's DATA is written in both cases, TAG and V in
neither; MEM is written on a miss only. -/
def State.storeThrough (s : State) (a : Operand) (v : Word) (hit : Bool) : State :=
  let s' := s.setLine (slotOf s.cfg a) { s.line (slotOf s.cfg a) with data := v }
  if hit then s' else s'.memWrite a v

/-- R70: the view of an address: what an instruction would read if it resolved the address now. -/
def State.view (s : State) (a : Operand) : Word :=
  if s.hitsAt a then (s.line (slotOf s.cfg a)).data else s.memRead a

/-- R71: whether a slot's line is valid and differs from the cell it caches (the rule's definition, where
its first bullet reads otherwise: notes/assumptions/19.md). -/
def State.divergent (s : State) (k : Nat) : Bool :=
  (s.line k).valid && !((s.line k).data == s.memRead (s.line k).tag)

end Sys2Proof.Machine
end

