-- ==== Sys2Proof/Machine/Operands.lean ====
section
/-!
DEFINITION. The one operand form: a 24-bit address, range-checked and then resolved through the cache
by every instruction word, whatever its opcode (spec/40_execution_cycle.md R114, spec/30_encoding.md
R93 and R97). Then the whole instruction around an opcode's body (R119).
-/

namespace Sys2Proof.Machine

/-- R114: the state RESOLVE. Out of range it raises before the cache is looked up (R56, R203). -/
def State.resolveOperand (s : State) (a : Operand) : Except FaultCause State :=
  if inRange s.cfg a then .ok (s.resolve a) else .error .addressOutOfRange

/-- What an opcode does in EXECUTE (or IO_XFER): from the operand address, the resolved value and the
resolved state, either the state before retirement or the fault it raises before writing anything. -/
abbrev Body := Operand → Word → State → Except FaultCause State

/-- R115 to R118: a body run to its end, retiring or raising. -/
def State.runBody (s : State) (a : Operand) (body : Body) : State :=
  match body a s.resolvedValue s with
  | .ok t => t.retire
  | .error f => s.raise f

/-- R119: one whole instruction after FETCH and DECODE: resolve, execute, transfer, retire. A fault of
a later state keeps what the earlier states did (R117, R208). -/
def State.runInstr (s : State) (a : Operand) (body : Body) : State :=
  match s.resolveOperand a with
  | .ok r => r.runBody a body
  | .error f => s.raise f

/-- R40, R205, R207: a body that reads registers: the reads are checked before it writes anything, and
before any other test of the body. -/
def reading (rs : List Reg) (body : Body) : Body := fun a v s =>
  if s.readable rs then body a v s else .error .unwrittenRead

end Sys2Proof.Machine
end

