-- ==== Sys2Proof/Machine/FloatInstr.lean ====
section
/-!
DEFINITION. The float instructions (spec/43_float.md R163 to R166): ADD_FLOAT, SUBTRACT_FLOAT,
MULTIPLY_FLOAT, DIVIDE_FLOAT. None writes AC, MQ or memory; each emits the float it wrote.
-/

namespace Sys2Proof.Machine

/-- The end every float instruction shares: floatAC is written and the value emitted. -/
def State.deliverFloat (s : State) (f : FloatVal) : State := (s.setFloatAC f).emit (.float f)

/-- R163. -/
def bodyAddFloat : Body := reading [.ac] fun _ v s =>
  .ok (s.deliverFloat (fadd s.cfg (decodeFloat s.cfg s.ac) (decodeFloat s.cfg v)))

/-- R164: decode(AC) minus decode(v). -/
def bodySubtractFloat : Body := reading [.ac] fun _ v s =>
  .ok (s.deliverFloat (fsub s.cfg (decodeFloat s.cfg s.ac) (decodeFloat s.cfg v)))

/-- R165: decode(MQ) times decode(v) (D12). AC is decoded too, so its mark is checked, but unused. -/
def bodyMultiplyFloat : Body := reading [.ac, .mq] fun _ v s =>
  let f := fmul s.cfg (decodeFloat s.cfg s.mq) (decodeFloat s.cfg v)
  .ok ((s.setFloatMQ f).deliverFloat f)

/-- R166: decode(AC) by decode(v) (D12). The zero test is on the raw resolved Word (D11, C5). -/
def bodyDivideFloat : Body := reading [.ac, .mq] fun _ v s =>
  let f := fdiv s.cfg (decodeFloat s.cfg s.ac) (decodeFloat s.cfg v)
  if v.toInt = 0 then .error .divideByZero else .ok ((s.setFloatMQ f).deliverFloat f)

/-- R163: ADD_FLOAT. -/
def execAddFloat (a : Operand) (s : State) : Host.Outcome State Fault Refusal :=
  .next (s.runInstr a bodyAddFloat)

/-- R164: SUBTRACT_FLOAT. -/
def execSubtractFloat (a : Operand) (s : State) : Host.Outcome State Fault Refusal :=
  .next (s.runInstr a bodySubtractFloat)

/-- R165: MULTIPLY_FLOAT. -/
def execMultiplyFloat (a : Operand) (s : State) : Host.Outcome State Fault Refusal :=
  .next (s.runInstr a bodyMultiplyFloat)

/-- R166: DIVIDE_FLOAT. -/
def execDivideFloat (a : Operand) (s : State) : Host.Outcome State Fault Refusal :=
  .next (s.runInstr a bodyDivideFloat)

end Sys2Proof.Machine
end

