-- ==== Sys2Proof/Machine/Arith.lean ====
section
/-!
DEFINITION. Arithmetic on Words (spec/00_scope.md R9, spec/42_integer.md R144 to R146): exact integer
results of the signed readings, reduced modulo 2^32. Nothing is detected, flagged or saturated.
-/

namespace Sys2Proof.Machine

/-- R9: `a +32 b`. -/
def addW (a b : Word) : Word := BitVec.ofInt 32 (a.toInt + b.toInt)

/-- R9: `a -32 b`. -/
def subW (a b : Word) : Word := BitVec.ofInt 32 (a.toInt - b.toInt)

/-- R9: `a *32 b`. -/
def mulW (a b : Word) : Word := BitVec.ofInt 32 (a.toInt * b.toInt)

/-- R9, R145: `divT(a, b)`, the quotient rounded toward zero (D9), so that -2^31 by -1 wraps to -2^31
(D10). Called with `b` not 0 only. -/
def divT (a b : Word) : Word := BitVec.ofInt 32 (a.toInt.tdiv b.toInt)

/-- R146: the 12-bit mask. -/
def mask12 (w : Word) : Word := w &&& 0x00000FFF

end Sys2Proof.Machine
end

