-- ==== Sys2Proof/Machine/Integer.lean ====
section
/-!
DEFINITION. The integer instructions (spec/42_integer.md): ADD, SUBTRACT, MULTIPLY, DIVIDE.
-/

namespace Sys2Proof.Machine

/-- R140. -/
def bodyAdd : Body := reading [.ac] fun _ v s => .ok (s.setAC (addW s.ac v))

/-- R141: AC minus the resolved value. -/
def bodySubtract : Body := reading [.ac] fun _ v s => .ok (s.setAC (subW s.ac v))

/-- R142, R146: the multiplicand is MQ; AC takes the low 12 bits of the new MQ. -/
def bodyMultiply : Body := reading [.mq] fun _ v s =>
  .ok ((s.setMQ (mulW s.mq v)).setAC (mask12 (mulW s.mq v)))

/-- R143, R145, R146: the dividend is AC; the zero test is on the resolved value and precedes every
write. -/
def bodyDivide : Body := reading [.ac] fun _ v s =>
  if v.toInt = 0 then .error .divideByZero
  else .ok ((s.setMQ (divT s.ac v)).setAC (mask12 (divT s.ac v)))

/-- R140: ADD. -/
def execAdd (a : Operand) (s : State) : Host.Outcome State Fault Refusal :=
  .next (s.runInstr a bodyAdd)

/-- R141: SUBTRACT. -/
def execSubtract (a : Operand) (s : State) : Host.Outcome State Fault Refusal :=
  .next (s.runInstr a bodySubtract)

/-- R142: MULTIPLY. -/
def execMultiply (a : Operand) (s : State) : Host.Outcome State Fault Refusal :=
  .next (s.runInstr a bodyMultiply)

/-- R143: DIVIDE. -/
def execDivide (a : Operand) (s : State) : Host.Outcome State Fault Refusal :=
  .next (s.runInstr a bodyDivide)

end Sys2Proof.Machine
end

