-- ==== Sys2Proof/Machine/OutputIo.lean ====
section
/-!
DEFINITION. The output and I/O-exchange instructions (spec/44_output_io.md): PRINT, LOAD_IO, STORE_IO.
The last two do nothing in EXECUTE; the bodies here are their IO_XFER transfers.
-/

namespace Sys2Proof.Machine

/-- R180. -/
def bodyPrint : Body := fun _ v s => .ok (s.emit (.int v))

/-- R181: AC goes to IOtemp and IORegister to AC; the event carries the unchanged IORegister. -/
def bodyLoadIo : Body := reading [.ac, .ioRegister] fun _ _ s =>
  .ok (((s.setIOtemp s.ac).setAC s.ioRegister).emit (.io s.ioRegister))

/-- R182: AC goes to IORegister and IOtemp to AC; the event carries the new IORegister. -/
def bodyStoreIo : Body := reading [.ac, .ioTemp] fun _ _ s =>
  .ok (((s.setIORegister s.ac).setAC s.ioTemp).emit (.io s.ac))

/-- R180: PRINT. -/
def execPrint (a : Operand) (s : State) : Host.Outcome State Fault Refusal :=
  .next (s.runInstr a bodyPrint)

/-- R181: LOAD_IO. -/
def execLoadIo (a : Operand) (s : State) : Host.Outcome State Fault Refusal :=
  .next (s.runInstr a bodyLoadIo)

/-- R182: STORE_IO. -/
def execStoreIo (a : Operand) (s : State) : Host.Outcome State Fault Refusal :=
  .next (s.runInstr a bodyStoreIo)

end Sys2Proof.Machine
end

