-- ==== Sys2Proof/Machine/Transfer.lean ====
section
/-!
DEFINITION. The transfer instructions (spec/41_transfer.md): LOAD, LOAD_MQ, MQ_TO_AC, STORE. Each has
its body, which runs in EXECUTE, and its whole-instruction meaning.
-/

namespace Sys2Proof.Machine

/-- R130: AC and MQ both take the resolved value. -/
def bodyLoad : Body := fun _ v s => .ok ((s.setAC v).setMQ v)

/-- R131. -/
def bodyLoadMq : Body := fun _ v s => .ok (s.setMQ v)

/-- R132: the resolved value is not used, though the operand is resolved like any other (C1). -/
def bodyMqToAc : Body := reading [.mq] fun _ _ s => .ok (s.setAC s.mq)

/-- R133: `StoreThrough(a, AC, HIT)`. -/
def bodyStore : Body := reading [.ac] fun a _ s => .ok (s.storeThrough a s.ac s.hit)

/-- R130: LOAD. -/
def execLoad (a : Operand) (s : State) : Host.Outcome State Fault Refusal :=
  .next (s.runInstr a bodyLoad)

/-- R131: LOAD_MQ. -/
def execLoadMq (a : Operand) (s : State) : Host.Outcome State Fault Refusal :=
  .next (s.runInstr a bodyLoadMq)

/-- R132: MQ_TO_AC. -/
def execMqToAc (a : Operand) (s : State) : Host.Outcome State Fault Refusal :=
  .next (s.runInstr a bodyMqToAc)

/-- R133: STORE. -/
def execStore (a : Operand) (s : State) : Host.Outcome State Fault Refusal :=
  .next (s.runInstr a bodyStore)

end Sys2Proof.Machine
end

