-- ==== Sys2Proof/Machine/Cycle.lean ====
section
/-!
DEFINITION. The engine's own steps (spec/40_execution_cycle.md R111 to R118), one transition of
ENG_STATE each, and the unassigned opcodes (spec/30_encoding.md R96). The model's `step`
(Machine/Step.lean) takes whole instructions, as R119 allows.
-/

namespace Sys2Proof.Machine

/-- R115, R116: the body of each opcode. -/
def bodyOf : Mnemonic → Body
  | .load => bodyLoad
  | .loadMq => bodyLoadMq
  | .mqToAc => bodyMqToAc
  | .store => bodyStore
  | .add => bodyAdd
  | .subtract => bodySubtract
  | .multiply => bodyMultiply
  | .divide => bodyDivide
  | .addFloat => bodyAddFloat
  | .subtractFloat => bodySubtractFloat
  | .multiplyFloat => bodyMultiplyFloat
  | .divideFloat => bodyDivideFloat
  | .print => bodyPrint
  | .loadIo => bodyLoadIo
  | .storeIo => bodyStoreIo

/-- R115, R116: the opcodes whose effect waits for IO_XFER, `OPC in {2, 3}`. -/
def isIoOpcode (o : Opcode) : Bool := o == 2 || o == 3

/-- R96, R115: what an opcode outside the map does in EXECUTE, after it has been resolved like any
other. -/
def bodyUnassigned : Body := fun _ _ s =>
  match s.cfg.unassignedPolicy with
  | .fault => .error .illegalOpcode
  | .nop => .ok s

/-- R115: `case OPC of`. -/
def bodyOfOpcode (o : Opcode) : Body :=
  match mnemonicOf? o with
  | some m => bodyOf m
  | none => bodyUnassigned

/-- R96: a whole word with an unassigned opcode. -/
def execUnassigned (a : Operand) (s : State) : Host.Outcome State Fault Refusal :=
  .next (s.runInstr a bodyUnassigned)

/-- R112: `PROG[PC]`, none where PC >= PLEN. -/
def State.fetchWord? (s : State) : Option Word := s.prog[s.pc.toNat]?

/-- R112, R113: the latches FETCH and DECODE leave. -/
def State.latch (s : State) (w : Word) : State :=
  { s with ir := w, opc := opcField w, opnd := opndField w }

/-- R112: FETCH. -/
def State.tickFetch (s : State) : State :=
  match s.fetchWord? with
  | some w => { s with ir := w, engState := .decode }
  | none => s.halt

/-- R113: DECODE. It never faults. -/
def State.tickDecode (s : State) : State :=
  { s with opc := opcField s.ir, opnd := opndField s.ir, engState := .resolve }

/-- R114: RESOLVE. -/
def State.tickResolve (s : State) : State :=
  match s.resolveOperand s.opnd with
  | .ok r => { r with engState := .execute }
  | .error f => s.raise f

/-- R115: EXECUTE. -/
def State.tickExecute (s : State) : State :=
  if isIoOpcode s.opc then { s with engState := .ioXfer }
  else s.runBody s.opnd (bodyOfOpcode s.opc)

/-- R116: IO_XFER. Entered for LOAD_IO and STORE_IO only; its last line retires whatever opcode the
latch holds. -/
def State.tickIoXfer (s : State) : State :=
  if isIoOpcode s.opc then s.runBody s.opnd (bodyOfOpcode s.opc) else s.retire

/-- R111: one transition of ENG_STATE, none in the two terminal states (R120). -/
def tick (s : State) : Option State :=
  match s.engState with
  | .fetch => some s.tickFetch
  | .decode => some s.tickDecode
  | .resolve => some s.tickResolve
  | .execute => some s.tickExecute
  | .ioXfer => some s.tickIoXfer
  | .halted => none
  | .faulted => none

/-- R111: whether the engine stands between instructions: at FETCH, or at the end of the run. -/
def State.atBoundary (s : State) : Bool :=
  match s.engState with
  | .fetch => true
  | .halted => true
  | .faulted => true
  | .decode => false
  | .resolve => false
  | .execute => false
  | .ioXfer => false

/-- R111 to R118: up to `n` transitions, stopping between instructions. -/
def State.finish : Nat → State → State
  | 0, s => s
  | n + 1, s => if s.atBoundary then s else ((tick s).map (State.finish n)).getD s

end Sys2Proof.Machine
end

