-- ==== Sys2Proof/Machine/Dispatch.lean ====
section
/-! DEFINITION. What each instruction does, one arm an instruction. -/

namespace Sys2Proof.Machine

-- R119: one whole instruction, after FETCH and DECODE have latched it.
def exec (i : Instr) (s : State) : Host.Outcome State Fault Refusal :=
  match i with
  | .load a => Sys2Proof.Machine.execLoad a s
  | .loadIo a => Sys2Proof.Machine.execLoadIo a s
  | .storeIo a => Sys2Proof.Machine.execStoreIo a s
  | .print a => Sys2Proof.Machine.execPrint a s
  | .add a => Sys2Proof.Machine.execAdd a s
  | .subtract a => Sys2Proof.Machine.execSubtract a s
  | .addFloat a => Sys2Proof.Machine.execAddFloat a s
  | .subtractFloat a => Sys2Proof.Machine.execSubtractFloat a s
  | .loadMq a => Sys2Proof.Machine.execLoadMq a s
  | .mqToAc a => Sys2Proof.Machine.execMqToAc a s
  | .multiply a => Sys2Proof.Machine.execMultiply a s
  | .divide a => Sys2Proof.Machine.execDivide a s
  | .multiplyFloat a => Sys2Proof.Machine.execMultiplyFloat a s
  | .divideFloat a => Sys2Proof.Machine.execDivideFloat a s
  | .store a => Sys2Proof.Machine.execStore a s

end Sys2Proof.Machine
end

