-- ==== Sys2Proof/Machine/Step.lean ====
section
/-!
DEFINITION. One step of the model: a whole instruction (spec/40_execution_cycle.md R119), or the
FETCH that ends the run (R112).
-/

namespace Sys2Proof.Machine

/-- R92, R96, R119: a fetched and latched word run to its end. -/
def runWord (w : Word) (s : State) : Host.Outcome State Fault Refusal :=
  match decode w with
  | .ok i => exec i s
  | .error (.unassignedOpcode _) => execUnassigned (opndField w) s

/-- R111, R119, R120: from FETCH one whole instruction, or HALTED where the program is exhausted. From
a state inside an instruction, the rest of that instruction. In HALTED and FAULTED the block has no
transition: the model is stuck there. -/
def step (s : State) : Host.Outcome State Fault Refusal :=
  match s.engState with
  | .fetch =>
    match s.fetchWord? with
    | some w => runWord w (s.latch w)
    | none => .next s.halt
  | .decode => .next (State.finish 4 s)
  | .resolve => .next (State.finish 4 s)
  | .execute => .next (State.finish 4 s)
  | .ioXfer => .next (State.finish 4 s)
  | .halted => .fault .stuckHalted
  | .faulted => .fault .stuckFaulted

/-- A program with the word at index `i` replaced, words of zeros standing in for any before it that
the program lacks. -/
def putWord (prog : List Word) (i : Nat) (w : Word) : List Word :=
  prog.take i ++ List.replicate (i - prog.length) 0 ++ w :: prog.drop (i + 1)

/-- The state with an instruction's word, its bits numbered as spec/opcode_table.json numbers them,
placed in PROG where the next FETCH reads, and the engine at that FETCH. It stands for the host's
load of a program (R232). -/
def State.withFetchWord (s : State) (nbits w : Nat) : State :=
  { s with
    prog := putWord s.prog s.pc.toNat (BitVec.ofNat 32 (w % 2 ^ nbits))
    engState := .fetch }

end Sys2Proof.Machine
end

