-- ==== Sys2Proof/Machine/Launch.lean ====
section
/-!
DEFINITION. The launch of a run from the host's two feeds (spec/70_reset_and_hazards.md R232,
spec/30_encoding.md R98), and the inputs the model does not accept (spec/93_implementation_defined.md
U16, U17; spec/00_scope.md R6). Reading the text files is outside the block (R5).
-/

namespace Sys2Proof.Machine

/-- Why a launch is refused: an error of the input, never a fault of the block (R209). -/
inductive LaunchError where
  /-- R6: `MEM_WORDS` or `CACHE_LINES` out of its range. -/
  | configOutOfRange
  /-- R232, U16: the memory feed does not hold exactly MEM_WORDS values. -/
  | memoryFeedLength
  /-- R98, U16: a feed value is no 32-bit signed integer. -/
  | feedValueOutOfRange
  /-- R6, U17: more than 2^31 - 1 instruction words. -/
  | programTooLong
deriving DecidableEq, Repr

/-- R98: a feed's Words, none where a value is out of range. -/
def feedWords : List Int → Option (List Word)
  | [] => some []
  | n :: rest =>
    match feedWord n, feedWords rest with
    | some w, some ws => some (w :: ws)
    | _, _ => none

/-- R232: the Memory Store filled in address order from address `a` up. -/
def memoryOf : Nat → List Word → Memory
  | _, [] => []
  | a, w :: rest => Cells.cons Memory.default a w (memoryOf (a + 1) rest)

/-- R232: construct the block, copy MEM_INIT into MEM, supply PROG and PLEN. -/
def launchFeeds (cfg : Config) (memFeed progFeed : List Int) : Except LaunchError State :=
  if cfg.wellFormed = false then .error .configOutOfRange
  else if memFeed.length ≠ cfg.memWords then .error .memoryFeedLength
  else
    match feedWords memFeed, feedWords progFeed with
    | some m, some p =>
      if progWellFormed p then .ok (State.launch cfg (memoryOf 0 m) p) else .error .programTooLong
    | _, _ => .error .feedValueOutOfRange

end Sys2Proof.Machine
end

