-- ==== Sys2Proof/Machine/Report.lean ====
section
/-!
DEFINITION. What the host reads after a run (spec/60_exceptions.md R213, R222). It is read from MEM,
never from the cache (spec/20_memory.md R73). Formatting is outside the block (spec/00_scope.md R5).
-/

namespace Sys2Proof.Machine

/-- R213: MEM[1], MEM[2], ..., MEM[MEM_WORDS - 1]; address 0 is skipped. -/
def State.memoryDump (s : State) : List Word :=
  (List.range (s.cfg.memWords - 1)).map fun i => s.mem.read (i + 1)

/-- R124, R222: the rest of what the host may read. -/
structure Report where
  hits : Nat
  misses : Nat
  out : List Event
  faultCode : BitVec 3
  pc : BitVec 32
  ac : Word
  mq : Word
  ioRegister : Word
  ioTemp : Word
  floatAC : FloatVal
  floatMQ : FloatVal
deriving DecidableEq, Repr

/-- R222. -/
def State.report (s : State) : Report where
  hits := s.hits
  misses := s.misses
  out := s.out
  faultCode := faultCode s.fault
  pc := s.pc
  ac := s.ac
  mq := s.mq
  ioRegister := s.ioRegister
  ioTemp := s.ioTemp
  floatAC := s.floatAC
  floatMQ := s.floatMQ

end Sys2Proof.Machine
end

