-- ==== Sys2Proof/Safety.lean ====
section
/-!
DEFINITION. The terms claims are stated in: when a run is over, the invariant of the machine, what a
resolve leaves behind, and what an instruction that completes, or faults, leaves as it was.
-/

namespace Sys2Proof.Machine

/-- R120: the run is over. -/
def State.ended (s : State) : Bool := s.engState == .halted || s.engState == .faulted

/-- R39: the registers an instruction reads (its R columns; the resolved value is no register). -/
def regsRead : Mnemonic → List Reg
  | .load => []
  | .loadMq => []
  | .mqToAc => [.mq]
  | .store => [.ac]
  | .add => [.ac]
  | .subtract => [.ac]
  | .multiply => [.mq]
  | .divide => [.ac]
  | .addFloat => [.ac]
  | .subtractFloat => [.ac]
  | .multiplyFloat => [.ac, .mq]
  | .divideFloat => [.ac, .mq]
  | .print => []
  | .loadIo => [.ac, .ioRegister]
  | .storeIo => [.ac, .ioTemp]

/-- R39: the registers an instruction writes (its W columns). -/
def regsWritten : Mnemonic → List Reg
  | .load => [.ac, .mq]
  | .loadMq => [.mq]
  | .mqToAc => [.ac]
  | .store => []
  | .add => [.ac]
  | .subtract => [.ac]
  | .multiply => [.mq, .ac]
  | .divide => [.mq, .ac]
  | .addFloat => [.floatAC]
  | .subtractFloat => [.floatAC]
  | .multiplyFloat => [.floatMQ, .floatAC]
  | .divideFloat => [.floatMQ, .floatAC]
  | .print => []
  | .loadIo => [.ioTemp, .ac]
  | .storeIo => [.ioRegister, .ac]

/-- The content of a register, whichever kind it holds. -/
inductive RegContent where
  | word (w : Word)
  | float (f : FloatVal)
deriving DecidableEq, Repr

/-- A data register by name. -/
def State.regContent (s : State) : Reg → RegContent
  | .ac => .word s.ac
  | .mq => .word s.mq
  | .ioRegister => .word s.ioRegister
  | .ioTemp => .word s.ioTemp
  | .floatAC => .float s.floatAC
  | .floatMQ => .float s.floatMQ

/-- R202: the instructions that test the resolved value for zero. -/
def divides (m : Mnemonic) : Bool := m == .divide || m == .divideFloat

/-- The configuration, the program and the instruction latches are as they were. -/
structure SameInstruction (s t : State) : Prop where
  cfg : t.cfg = s.cfg
  prog : t.prog = s.prog
  ir : t.ir = s.ir
  opc : t.opc = s.opc
  opnd : t.opnd = s.opnd

/-- R60 to R62: the latches and the counters a resolve of `a` leaves. -/
structure ResolveCounted (s : State) (a : Operand) (t : State) : Prop where
  hit : t.hit = s.hitsAt a
  slot : t.slot = a.toNat % s.cfg.cacheLines
  hits : t.hits = if s.hitsAt a then (s.hits + 1) % 2 ^ s.cfg.counterWidth else s.hits
  misses : t.misses = if s.hitsAt a then s.misses else (s.misses + 1) % 2 ^ s.cfg.counterWidth

/-- R61, R62: the lines a resolve of `a` leaves: on a miss, and in the slot of `a` alone, the line that
caches MEM[a]; every other line as it was. -/
def ResolveFilled (s : State) (a : Operand) (t : State) : Prop :=
  ∀ k, t.line k =
    if s.hitsAt a = false ∧ k = a.toNat % s.cfg.cacheLines then ⟨true, a, s.memRead a⟩ else s.line k

/-- Every cell of the Memory Store reads as it did. -/
def SameMemory (s t : State) : Prop := ∀ b, t.mem.read b = s.mem.read b

/-- R40, R118: what every instruction that completes leaves, whatever it computes: PC one further, the
engine at FETCH, the resolve's latches and counters, the marks of the registers it wrote, and
everything no instruction writes as it was. -/
structure Completes (s : State) (m : Mnemonic) (a : Operand) (t : State) : Prop where
  pc : t.pc = s.pc + 1
  engState : t.engState = .fetch
  fault : t.fault = s.fault
  same : SameInstruction s t
  counted : ResolveCounted s a t
  written : ∀ r, t.written.get r =
    if s.cfg.regInit = .unwritten ∧ r ∈ regsWritten m then true else s.written.get r

/-- R117, R202, R204, R205: what a fault raised in EXECUTE or IO_XFER leaves: FAULT holds the cause,
the engine is in FAULTED, the resolve's effects stay, and no register, mark, memory cell or event is
written. -/
structure FaultsAfterResolve (s : State) (a : Operand) (f : FaultCause) (t : State) : Prop where
  fault : t.fault = some f
  engState : t.engState = .faulted
  pc : t.pc = s.pc
  same : SameInstruction s t
  counted : ResolveCounted s a t
  filled : ResolveFilled s a t
  memory : SameMemory s t
  regs : ∀ r, t.regContent r = s.regContent r
  written : t.written = s.written
  out : t.out = s.out

/-- The invariant of the machine: what the spec says of every state of a run (R6, R23, R28, R30 to
R36, R40), with the canonical forms of the two sparse arrays. -/
structure State.Inv (s : State) : Prop where
  cfg : s.cfg.wellFormed = true
  prog : progWellFormed s.prog = true
  /-- R23: PC never passes PLEN. -/
  pc : s.pc.toNat ≤ s.prog.length
  memWf : Memory.wf s.mem = true
  memBelow : Cells.below s.cfg.memWords s.mem = true
  clWf : CacheArray.wf s.cl = true
  clBelow : Cells.below s.cfg.cacheLines s.cl = true
  /-- R28: a valid line stands in the slot of its tag. -/
  tagSlot : ∀ k, (s.line k).valid = true → (s.line k).tag.toNat % s.cfg.cacheLines = k
  /-- R28: a valid tag is an address of the Memory Store. -/
  tagRange : ∀ k, (s.line k).valid = true → (s.line k).tag.toNat < s.cfg.memWords
  /-- R30. -/
  hits : s.hits < 2 ^ s.cfg.counterWidth
  /-- R31. -/
  misses : s.misses < 2 ^ s.cfg.counterWidth
  /-- R34. -/
  slot : s.slot < s.cfg.cacheLines
  /-- R36: FAULT holds a cause exactly in FAULTED. -/
  fault : s.fault.isSome = (s.engState == .faulted)
  /-- R112: HALTED is entered when the program is exhausted. -/
  halted : s.engState = .halted → s.pc.toNat = s.prog.length
  /-- R33, R112: inside an instruction IR holds PROG[PC]. -/
  fetched : s.atBoundary = false → s.fetchWord? = some s.ir
  /-- R33, R113: after DECODE the other two latches hold its fields. -/
  decoded : s.engState = .resolve ∨ s.engState = .execute ∨ s.engState = .ioXfer →
    s.opc = opcField s.ir ∧ s.opnd = opndField s.ir
  /-- R34, R60, R114: after RESOLVE the operand is in range and resident in the slot SLOT names. -/
  resolved : s.engState = .execute ∨ s.engState = .ioXfer →
    s.opnd.toNat < s.cfg.memWords ∧ s.slot = slotOf s.cfg s.opnd ∧ s.hitsAt s.opnd = true
  /-- R116: IO_XFER is entered for the two I/O opcodes only. -/
  ioXfer : s.engState = .ioXfer → s.opc = 2 ∨ s.opc = 3
  /-- R40: under REG_INIT = Zero there are no marks. -/
  written : s.cfg.regInit = .zero → s.written = Written.none

/-- R119: a list of instructions executed one after another, none where one of them does not
complete. -/
def execAll : List Instr → State → Option State
  | [], s => some s
  | i :: rest, s =>
    match exec i s with
    | .next t => if t.engState = .fetch then execAll rest t else none
    | .fault _ => none
    | .refused _ => none

/-- R119: a list of fetched words run one after another, unassigned opcodes too, none where one of them
does not complete. -/
def runWords : List Word → State → Option State
  | [], s => some s
  | w :: rest, s =>
    match runWord w s with
    | .next t => if t.engState = .fetch then runWords rest t else none
    | .fault _ => none
    | .refused _ => none

/-- `n` transitions of the engine (R111), none where the run ends before. -/
def ticks : Nat → State → Option State
  | 0, s => some s
  | n + 1, s => (tick s).bind (ticks n)

end Sys2Proof.Machine
end

