-- ==== Sys2Proof/Certificates/Slice0/Obligations.lean ====
section
/-!
DEFINITION. The statements for the provers, from the numbered rules of spec/. Each docstring names the
rules it formalises. Every statement over all states is a statement over all configurations, since the
configuration is a field of the state.
-/

open Sys2Proof Sys2Proof.Machine

/-! ### Encoding -/

/-- R90 to R94, R99: decoding an encoded instruction gives it back, with every operand. -/
def Obligations.DecodeEncodeRoundTrip : Prop :=
  ∀ i : Instr, decode (encode i) = .ok i

/-- R90, R94: a word that decodes is the encoding of what it decodes to, so that no bit is dropped. -/
def Obligations.EncodeDecodeRoundTrip : Prop :=
  ∀ (w : Word) (i : Instr), decode w = .ok i → encode i = w

/-- R92: the opcode is the top 8 bits, unsigned, and the operand the low 24 bits. -/
def Obligations.DecodeSplitsTheWord : Prop :=
  ∀ w : Word, (opcField w).toNat = w.toNat / 2 ^ 24 ∧ (opndField w).toNat = w.toNat % 2 ^ 24

/-- R96: the 241 unassigned opcode values, 0, 15 to 32 and 34 to 255, are exactly the ones that decode
to no instruction, each refused with its own opcode. -/
def Obligations.UnassignedOpcodesDecodeToNothing : Prop :=
  ∀ w : Word,
    (w.toNat / 2 ^ 24 = 0 ∨ (15 ≤ w.toNat / 2 ^ 24 ∧ w.toNat / 2 ^ 24 ≤ 32) ∨ 34 ≤ w.toNat / 2 ^ 24) ↔
      decode w = .error (.unassignedOpcode (opcField w))

/-- R101, and the words of spec/95_test_vectors.md section 2 and of the programs of its section 11: one
word of each family, written out. -/
def Obligations.SampleWordsDecode : Prop :=
  opcField 0x01000005 = 1 ∧ opndField 0x01000005 = 5 ∧ feedWord 16777221 = some 0x01000005 ∧
  assemble ⟨.load, 5⟩ = some 0x01000005 ∧ decode 0x01000005 = .ok (.load 5) ∧
  decode 0x21000006 = .ok (.store 6) ∧ decode 0x0B000003 = .ok (.multiply 3) ∧
  decode 0x0E07FFFF = .ok (.divideFloat 524287) ∧ decode 0x02000000 = .ok (.loadIo 0) ∧
  decode 0xFF000001 = .error (.unassignedOpcode 255)

/-- R99: the word of an assembler line is `(OPC << 24) | a`, for every operand in 0 to 2^24 - 1, and a
line outside that range has none. -/
def Obligations.AssemblerLineEncodes : Prop :=
  ∀ (m : Mnemonic) (n : Nat),
    (n ≤ 2 ^ 24 - 1 → ∃ w, assemble ⟨m, n⟩ = some w ∧ w.toNat = (opcodeOf m).toNat * 2 ^ 24 + n ∧
      decode w = .ok (Instr.ofMnemonic m (BitVec.ofNat 24 n))) ∧
    (2 ^ 24 - 1 < n → assemble ⟨m, n⟩ = none)

/-- R98: a feed integer in -2^31 to 2^31 - 1 is the Word whose signed value it is; another is an input
error. -/
def Obligations.FeedIntegerIsTheSignedReading : Prop :=
  (∀ n : Int, -(2 ^ 31) ≤ n → n ≤ 2 ^ 31 - 1 → ∃ w, feedWord n = some w ∧ w.toInt = n) ∧
  (∀ n : Int, n < -(2 ^ 31) ∨ 2 ^ 31 - 1 < n → feedWord n = none) ∧
  feedWord 16777221 = some (encode (.load 5)) ∧ feedWord 553648134 = some (encode (.store 6))

/-! ### The cache controller -/

/-- R59, R60, R61, R62: what `Resolve(a)` does: the hit test, the latches and the counters, the line of the
slot and no other, and everything else as it was. The last sentence of R60 and R63 with R70, which the
spec derives: the line it leaves resident, and the value read, which is the view before it. -/
def Obligations.ResolveFollowsItsAlgorithm : Prop :=
  ∀ (s : State) (a : Operand),
    ResolveCounted s a (s.resolve a) ∧ ResolveFilled s a (s.resolve a) ∧
    (s.hitsAt a = true ↔ (s.line (a.toNat % s.cfg.cacheLines)).valid = true ∧
      (s.line (a.toNat % s.cfg.cacheLines)).tag = a) ∧
    ((s.resolve a).line (a.toNat % s.cfg.cacheLines)).valid = true ∧
    ((s.resolve a).line (a.toNat % s.cfg.cacheLines)).tag = a ∧
    (s.resolve a).resolvedValue = s.view a ∧
    s.resolve a = { s with
      cl := (s.resolve a).cl, hits := (s.resolve a).hits, misses := (s.resolve a).misses
      hit := (s.resolve a).hit, slot := (s.resolve a).slot }

/-- R68: a resolve of an address just resolved is a hit: it counts in HITS and changes no line. -/
def Obligations.SecondResolveHits : Prop :=
  ∀ (s : State) (a : Operand),
    ((s.resolve a).resolve a).hit = true ∧
    ((s.resolve a).resolve a).hits = ((s.resolve a).hits + 1) % 2 ^ s.cfg.counterWidth ∧
    ((s.resolve a).resolve a).misses = (s.resolve a).misses ∧
    ((s.resolve a).resolve a).cl = (s.resolve a).cl ∧ ((s.resolve a).resolve a).mem = s.mem

/-- R56, R203: an operand outside the Memory Store raises ADDRESS_OUT_OF_RANGE, whatever the opcode,
unassigned ones too, and changes nothing but FAULT and ENG_STATE. -/
def Obligations.OutOfRangeOperandRaises : Prop :=
  (∀ (i : Instr) (s : State), s.cfg.memWords ≤ i.operand.toNat →
    exec i s = .next { s with fault := some .addressOutOfRange, engState := .faulted }) ∧
  (∀ (w : Word) (s : State), s.cfg.memWords ≤ (opndField w).toNat →
    runWord w s = .next { s with fault := some .addressOutOfRange, engState := .faulted })

/-- R204: an opcode outside the map, once resolved, raises ILLEGAL_OPCODE under the policy Fault; under
Nop (R96) it completes with no effect beyond the resolve. -/
def Obligations.UnassignedOpcodeFollowsThePolicy : Prop :=
  ∀ (s : State) (w : Word) (o : Opcode), decode w = .error (.unassignedOpcode o) →
    (opndField w).toNat < s.cfg.memWords →
    (s.cfg.unassignedPolicy = .fault →
      ∃ t, runWord w s = .next t ∧ FaultsAfterResolve s (opndField w) .illegalOpcode t) ∧
    (s.cfg.unassignedPolicy = .nop →
      ∃ t, runWord w s = .next t ∧ t.pc = s.pc + 1 ∧ t.engState = .fetch ∧ t.fault = s.fault ∧
        SameInstruction s t ∧ ResolveCounted s (opndField w) t ∧ ResolveFilled s (opndField w) t ∧
        SameMemory s t ∧ (∀ r, t.regContent r = s.regContent r) ∧ t.written = s.written ∧
        t.out = s.out)

/-! ### The instructions, one statement each: encoding, completion with its whole effect, faults -/

/-- R130: LOAD gives AC and MQ the resolved value. -/
def Obligations.LoadWritesAcAndMq : Prop :=
  (∀ a : Operand, encode (.load a) = 0x01000000 ||| a.zeroExtend 32) ∧
  (∀ (s : State) (a : Operand), a.toNat < s.cfg.memWords →
      ∃ t, exec (.load a) s = .next t ∧ Completes s .load a t ∧ ResolveFilled s a t ∧
        SameMemory s t ∧ t.ac = s.view a ∧ t.mq = s.view a ∧ t.ioRegister = s.ioRegister ∧
        t.ioTemp = s.ioTemp ∧ t.floatAC = s.floatAC ∧ t.floatMQ = s.floatMQ ∧ t.out = s.out) ∧
  (∀ (s : State) (a : Operand), s.cfg.memWords ≤ a.toNat →
    exec (.load a) s = .next { s with fault := some .addressOutOfRange, engState := .faulted })

/-- R131: LOAD_MQ gives MQ the resolved value. -/
def Obligations.LoadMqWritesMq : Prop :=
  (∀ a : Operand, encode (.loadMq a) = 0x09000000 ||| a.zeroExtend 32) ∧
  (∀ (s : State) (a : Operand), a.toNat < s.cfg.memWords →
      ∃ t, exec (.loadMq a) s = .next t ∧ Completes s .loadMq a t ∧ ResolveFilled s a t ∧
        SameMemory s t ∧ t.ac = s.ac ∧ t.mq = s.view a ∧ t.ioRegister = s.ioRegister ∧
        t.ioTemp = s.ioTemp ∧ t.floatAC = s.floatAC ∧ t.floatMQ = s.floatMQ ∧ t.out = s.out) ∧
  (∀ (s : State) (a : Operand), s.cfg.memWords ≤ a.toNat →
    exec (.loadMq a) s = .next { s with fault := some .addressOutOfRange, engState := .faulted })

/-- R132: MQ_TO_AC copies MQ to AC; its operand is resolved all the same. -/
def Obligations.MqToAcCopiesMq : Prop :=
  (∀ a : Operand, encode (.mqToAc a) = 0x0A000000 ||| a.zeroExtend 32) ∧
  (∀ (s : State) (a : Operand), a.toNat < s.cfg.memWords →
    (s.cfg.regInit = .zero ∨ s.written.mq = true) →
      ∃ t, exec (.mqToAc a) s = .next t ∧ Completes s .mqToAc a t ∧ ResolveFilled s a t ∧
        SameMemory s t ∧ t.ac = s.mq ∧ t.mq = s.mq ∧ t.ioRegister = s.ioRegister ∧
        t.ioTemp = s.ioTemp ∧ t.floatAC = s.floatAC ∧ t.floatMQ = s.floatMQ ∧ t.out = s.out) ∧
  (∀ (s : State) (a : Operand), s.cfg.memWords ≤ a.toNat →
    exec (.mqToAc a) s = .next { s with fault := some .addressOutOfRange, engState := .faulted }) ∧
  (∀ (s : State) (a : Operand), a.toNat < s.cfg.memWords → s.cfg.regInit = .unwritten →
    s.written.mq = false → ∃ t, exec (.mqToAc a) s = .next t ∧ FaultsAfterResolve s a .unwrittenRead t)

/-- R133, R65, R66: STORE writes AC to the line in both cases and to MEM on a miss only. The canonical form
of the memory is an invariant (`StepKeepsTheInvariant`). -/
def Obligations.StoreWritesThroughOnAMiss : Prop :=
  (∀ a : Operand, encode (.store a) = 0x21000000 ||| a.zeroExtend 32) ∧
  (∀ (s : State) (a : Operand), a.toNat < s.cfg.memWords →
    (s.cfg.regInit = .zero ∨ s.written.ac = true) →
    s.mem.wf = true →
      ∃ t, exec (.store a) s = .next t ∧ Completes s .store a t ∧
        (∀ k, t.line k = if k = a.toNat % s.cfg.cacheLines then ⟨true, a, s.ac⟩ else s.line k) ∧
        (∀ b, t.mem.read b = if s.hitsAt a = false ∧ b = a.toNat then s.ac else s.mem.read b) ∧
        t.ac = s.ac ∧ t.mq = s.mq ∧ t.ioRegister = s.ioRegister ∧ t.ioTemp = s.ioTemp ∧
        t.floatAC = s.floatAC ∧ t.floatMQ = s.floatMQ ∧ t.out = s.out) ∧
  (∀ (s : State) (a : Operand), s.cfg.memWords ≤ a.toNat →
    exec (.store a) s = .next { s with fault := some .addressOutOfRange, engState := .faulted }) ∧
  (∀ (s : State) (a : Operand), a.toNat < s.cfg.memWords → s.cfg.regInit = .unwritten →
    s.written.ac = false → ∃ t, exec (.store a) s = .next t ∧ FaultsAfterResolve s a .unwrittenRead t)

/-- R140: ADD, the exact sum of the signed readings modulo 2^32. -/
def Obligations.AddAddsModuloWordSize : Prop :=
  (∀ a : Operand, encode (.add a) = 0x05000000 ||| a.zeroExtend 32) ∧
  (∀ (s : State) (a : Operand), a.toNat < s.cfg.memWords →
    (s.cfg.regInit = .zero ∨ s.written.ac = true) →
      ∃ t, exec (.add a) s = .next t ∧ Completes s .add a t ∧ ResolveFilled s a t ∧ SameMemory s t ∧
        t.ac = BitVec.ofInt 32 (s.ac.toInt + (s.view a).toInt) ∧ t.mq = s.mq ∧
        t.ioRegister = s.ioRegister ∧ t.ioTemp = s.ioTemp ∧ t.floatAC = s.floatAC ∧
        t.floatMQ = s.floatMQ ∧ t.out = s.out) ∧
  (∀ (s : State) (a : Operand), s.cfg.memWords ≤ a.toNat →
    exec (.add a) s = .next { s with fault := some .addressOutOfRange, engState := .faulted }) ∧
  (∀ (s : State) (a : Operand), a.toNat < s.cfg.memWords → s.cfg.regInit = .unwritten →
    s.written.ac = false → ∃ t, exec (.add a) s = .next t ∧ FaultsAfterResolve s a .unwrittenRead t)

/-- R141: SUBTRACT, AC minus the resolved value modulo 2^32. -/
def Obligations.SubtractTakesTheValueFromAc : Prop :=
  (∀ a : Operand, encode (.subtract a) = 0x06000000 ||| a.zeroExtend 32) ∧
  (∀ (s : State) (a : Operand), a.toNat < s.cfg.memWords →
    (s.cfg.regInit = .zero ∨ s.written.ac = true) →
      ∃ t, exec (.subtract a) s = .next t ∧ Completes s .subtract a t ∧ ResolveFilled s a t ∧
        SameMemory s t ∧ t.ac = BitVec.ofInt 32 (s.ac.toInt - (s.view a).toInt) ∧ t.mq = s.mq ∧
        t.ioRegister = s.ioRegister ∧ t.ioTemp = s.ioTemp ∧ t.floatAC = s.floatAC ∧
        t.floatMQ = s.floatMQ ∧ t.out = s.out) ∧
  (∀ (s : State) (a : Operand), s.cfg.memWords ≤ a.toNat →
    exec (.subtract a) s = .next { s with fault := some .addressOutOfRange, engState := .faulted }) ∧
  (∀ (s : State) (a : Operand), a.toNat < s.cfg.memWords → s.cfg.regInit = .unwritten →
    s.written.ac = false → ∃ t, exec (.subtract a) s = .next t ∧ FaultsAfterResolve s a .unwrittenRead t)

/-- R142, R146: MULTIPLY, MQ times the resolved value modulo 2^32, and the low 12 bits of it in AC. -/
def Obligations.MultiplyMultipliesMq : Prop :=
  (∀ a : Operand, encode (.multiply a) = 0x0B000000 ||| a.zeroExtend 32) ∧
  (∀ (s : State) (a : Operand), a.toNat < s.cfg.memWords →
    (s.cfg.regInit = .zero ∨ s.written.mq = true) →
      ∃ t, exec (.multiply a) s = .next t ∧ Completes s .multiply a t ∧ ResolveFilled s a t ∧
        SameMemory s t ∧ t.ac = t.mq &&& 0x00000FFF ∧
        t.mq = BitVec.ofInt 32 (s.mq.toInt * (s.view a).toInt) ∧ t.ioRegister = s.ioRegister ∧
        t.ioTemp = s.ioTemp ∧ t.floatAC = s.floatAC ∧ t.floatMQ = s.floatMQ ∧ t.out = s.out) ∧
  (∀ (s : State) (a : Operand), s.cfg.memWords ≤ a.toNat →
    exec (.multiply a) s = .next { s with fault := some .addressOutOfRange, engState := .faulted }) ∧
  (∀ (s : State) (a : Operand), a.toNat < s.cfg.memWords → s.cfg.regInit = .unwritten →
    s.written.mq = false → ∃ t, exec (.multiply a) s = .next t ∧ FaultsAfterResolve s a .unwrittenRead t)

/-- R143, R145, R146: DIVIDE, AC by the resolved value rounded toward zero, and its low 12 bits in AC; a
resolved value of 0 raises DIVIDE_BY_ZERO, after the register read is checked (R207). -/
def Obligations.DivideDividesAc : Prop :=
  (∀ a : Operand, encode (.divide a) = 0x0C000000 ||| a.zeroExtend 32) ∧
  (∀ (s : State) (a : Operand), a.toNat < s.cfg.memWords →
    (s.cfg.regInit = .zero ∨ s.written.ac = true) →
    s.view a ≠ 0 →
      ∃ t, exec (.divide a) s = .next t ∧ Completes s .divide a t ∧ ResolveFilled s a t ∧
        SameMemory s t ∧ t.ac = t.mq &&& 0x00000FFF ∧
        t.mq = BitVec.ofInt 32 (s.ac.toInt.tdiv (s.view a).toInt) ∧ t.ioRegister = s.ioRegister ∧
        t.ioTemp = s.ioTemp ∧ t.floatAC = s.floatAC ∧ t.floatMQ = s.floatMQ ∧ t.out = s.out) ∧
  (∀ (s : State) (a : Operand), s.cfg.memWords ≤ a.toNat →
    exec (.divide a) s = .next { s with fault := some .addressOutOfRange, engState := .faulted }) ∧
  (∀ (s : State) (a : Operand), a.toNat < s.cfg.memWords → s.cfg.regInit = .unwritten →
    s.written.ac = false → ∃ t, exec (.divide a) s = .next t ∧ FaultsAfterResolve s a .unwrittenRead t) ∧
  (∀ (s : State) (a : Operand), a.toNat < s.cfg.memWords →
    (s.cfg.regInit = .zero ∨ s.written.ac = true) → s.view a = 0 →
      ∃ t, exec (.divide a) s = .next t ∧ FaultsAfterResolve s a .divideByZero t)

/-- R163: ADD_FLOAT, decode(AC) plus decode(v) into floatAC, emitted. -/
def Obligations.AddFloatWritesFloatAc : Prop :=
  (∀ a : Operand, encode (.addFloat a) = 0x07000000 ||| a.zeroExtend 32) ∧
  (∀ (s : State) (a : Operand), a.toNat < s.cfg.memWords →
    (s.cfg.regInit = .zero ∨ s.written.ac = true) →
      ∃ t, exec (.addFloat a) s = .next t ∧ Completes s .addFloat a t ∧ ResolveFilled s a t ∧
        SameMemory s t ∧ t.ac = s.ac ∧ t.mq = s.mq ∧ t.ioRegister = s.ioRegister ∧
        t.ioTemp = s.ioTemp ∧
        t.floatAC = fadd s.cfg (decodeFloat s.cfg s.ac) (decodeFloat s.cfg (s.view a)) ∧
        t.floatMQ = s.floatMQ ∧ t.out = s.out ++ [.float t.floatAC]) ∧
  (∀ (s : State) (a : Operand), s.cfg.memWords ≤ a.toNat →
    exec (.addFloat a) s = .next { s with fault := some .addressOutOfRange, engState := .faulted }) ∧
  (∀ (s : State) (a : Operand), a.toNat < s.cfg.memWords → s.cfg.regInit = .unwritten →
    s.written.ac = false → ∃ t, exec (.addFloat a) s = .next t ∧ FaultsAfterResolve s a .unwrittenRead t)

/-- R164: SUBTRACT_FLOAT, decode(AC) minus decode(v) into floatAC, emitted. -/
def Obligations.SubtractFloatWritesFloatAc : Prop :=
  (∀ a : Operand, encode (.subtractFloat a) = 0x08000000 ||| a.zeroExtend 32) ∧
  (∀ (s : State) (a : Operand), a.toNat < s.cfg.memWords →
    (s.cfg.regInit = .zero ∨ s.written.ac = true) →
      ∃ t, exec (.subtractFloat a) s = .next t ∧ Completes s .subtractFloat a t ∧
        ResolveFilled s a t ∧ SameMemory s t ∧ t.ac = s.ac ∧ t.mq = s.mq ∧
        t.ioRegister = s.ioRegister ∧ t.ioTemp = s.ioTemp ∧
        t.floatAC = fsub s.cfg (decodeFloat s.cfg s.ac) (decodeFloat s.cfg (s.view a)) ∧
        t.floatMQ = s.floatMQ ∧ t.out = s.out ++ [.float t.floatAC]) ∧
  (∀ (s : State) (a : Operand), s.cfg.memWords ≤ a.toNat →
    exec (.subtractFloat a) s = .next { s with fault := some .addressOutOfRange, engState := .faulted }) ∧
  (∀ (s : State) (a : Operand), a.toNat < s.cfg.memWords → s.cfg.regInit = .unwritten →
    s.written.ac = false → ∃ t, exec (.subtractFloat a) s = .next t ∧ FaultsAfterResolve s a .unwrittenRead t)

/-- R165: MULTIPLY_FLOAT, decode(MQ) times decode(v) into floatMQ and floatAC, emitted; AC is checked for
its mark but not used. -/
def Obligations.MultiplyFloatWritesBothFloats : Prop :=
  (∀ a : Operand, encode (.multiplyFloat a) = 0x0D000000 ||| a.zeroExtend 32) ∧
  (∀ (s : State) (a : Operand), a.toNat < s.cfg.memWords →
    (s.cfg.regInit = .zero ∨ (s.written.ac = true ∧ s.written.mq = true)) →
      ∃ t, exec (.multiplyFloat a) s = .next t ∧ Completes s .multiplyFloat a t ∧
        ResolveFilled s a t ∧ SameMemory s t ∧ t.ac = s.ac ∧ t.mq = s.mq ∧
        t.ioRegister = s.ioRegister ∧ t.ioTemp = s.ioTemp ∧ t.floatAC = t.floatMQ ∧
        t.floatMQ = fmul s.cfg (decodeFloat s.cfg s.mq) (decodeFloat s.cfg (s.view a)) ∧
        t.out = s.out ++ [.float t.floatAC]) ∧
  (∀ (s : State) (a : Operand), s.cfg.memWords ≤ a.toNat →
    exec (.multiplyFloat a) s = .next { s with fault := some .addressOutOfRange, engState := .faulted }) ∧
  (∀ (s : State) (a : Operand), a.toNat < s.cfg.memWords → s.cfg.regInit = .unwritten →
    (s.written.ac = false ∨ s.written.mq = false) → ∃ t, exec (.multiplyFloat a) s = .next t ∧ FaultsAfterResolve s a .unwrittenRead t)

/-- R166: DIVIDE_FLOAT, decode(AC) by decode(v) into floatMQ and floatAC, emitted; a raw resolved Word of 0
raises DIVIDE_BY_ZERO. -/
def Obligations.DivideFloatWritesBothFloats : Prop :=
  (∀ a : Operand, encode (.divideFloat a) = 0x0E000000 ||| a.zeroExtend 32) ∧
  (∀ (s : State) (a : Operand), a.toNat < s.cfg.memWords →
    (s.cfg.regInit = .zero ∨ (s.written.ac = true ∧ s.written.mq = true)) →
    s.view a ≠ 0 →
      ∃ t, exec (.divideFloat a) s = .next t ∧ Completes s .divideFloat a t ∧ ResolveFilled s a t ∧
        SameMemory s t ∧ t.ac = s.ac ∧ t.mq = s.mq ∧ t.ioRegister = s.ioRegister ∧
        t.ioTemp = s.ioTemp ∧ t.floatAC = t.floatMQ ∧
        t.floatMQ = fdiv s.cfg (decodeFloat s.cfg s.ac) (decodeFloat s.cfg (s.view a)) ∧
        t.out = s.out ++ [.float t.floatAC]) ∧
  (∀ (s : State) (a : Operand), s.cfg.memWords ≤ a.toNat →
    exec (.divideFloat a) s = .next { s with fault := some .addressOutOfRange, engState := .faulted }) ∧
  (∀ (s : State) (a : Operand), a.toNat < s.cfg.memWords → s.cfg.regInit = .unwritten →
    (s.written.ac = false ∨ s.written.mq = false) → ∃ t, exec (.divideFloat a) s = .next t ∧ FaultsAfterResolve s a .unwrittenRead t) ∧
  (∀ (s : State) (a : Operand), a.toNat < s.cfg.memWords →
    (s.cfg.regInit = .zero ∨ (s.written.ac = true ∧ s.written.mq = true)) → s.view a = 0 →
      ∃ t, exec (.divideFloat a) s = .next t ∧ FaultsAfterResolve s a .divideByZero t)

/-- R180: PRINT emits the resolved value and changes no register. -/
def Obligations.PrintEmitsTheView : Prop :=
  (∀ a : Operand, encode (.print a) = 0x04000000 ||| a.zeroExtend 32) ∧
  (∀ (s : State) (a : Operand), a.toNat < s.cfg.memWords →
      ∃ t, exec (.print a) s = .next t ∧ Completes s .print a t ∧ ResolveFilled s a t ∧
        SameMemory s t ∧ t.ac = s.ac ∧ t.mq = s.mq ∧ t.ioRegister = s.ioRegister ∧
        t.ioTemp = s.ioTemp ∧ t.floatAC = s.floatAC ∧ t.floatMQ = s.floatMQ ∧
        t.out = s.out ++ [.int (s.view a)]) ∧
  (∀ (s : State) (a : Operand), s.cfg.memWords ≤ a.toNat →
    exec (.print a) s = .next { s with fault := some .addressOutOfRange, engState := .faulted })

/-- R181: LOAD_IO has no effect in EXECUTE but to enter IO_XFER; in all, AC goes to IOtemp, IORegister to AC,
and the event carries IORegister. -/
def Obligations.LoadIoExchangesAc : Prop :=
  (∀ a : Operand, encode (.loadIo a) = 0x02000000 ||| a.zeroExtend 32) ∧
  (∀ s : State, s.engState = .execute → s.opc = 2 → tick s = some { s with engState := .ioXfer }) ∧
  (∀ (s : State) (a : Operand), a.toNat < s.cfg.memWords →
    (s.cfg.regInit = .zero ∨ (s.written.ac = true ∧ s.written.ioRegister = true)) →
      ∃ t, exec (.loadIo a) s = .next t ∧ Completes s .loadIo a t ∧ ResolveFilled s a t ∧
        SameMemory s t ∧ t.ac = s.ioRegister ∧ t.mq = s.mq ∧ t.ioRegister = s.ioRegister ∧
        t.ioTemp = s.ac ∧ t.floatAC = s.floatAC ∧ t.floatMQ = s.floatMQ ∧
        t.out = s.out ++ [.io s.ioRegister]) ∧
  (∀ (s : State) (a : Operand), s.cfg.memWords ≤ a.toNat →
    exec (.loadIo a) s = .next { s with fault := some .addressOutOfRange, engState := .faulted }) ∧
  (∀ (s : State) (a : Operand), a.toNat < s.cfg.memWords → s.cfg.regInit = .unwritten →
    (s.written.ac = false ∨ s.written.ioRegister = false) → ∃ t, exec (.loadIo a) s = .next t ∧ FaultsAfterResolve s a .unwrittenRead t)

/-- R182: STORE_IO has no effect in EXECUTE but to enter IO_XFER; in all, AC goes to IORegister, IOtemp to
AC, and the event carries the new IORegister. -/
def Obligations.StoreIoExchangesAc : Prop :=
  (∀ a : Operand, encode (.storeIo a) = 0x03000000 ||| a.zeroExtend 32) ∧
  (∀ s : State, s.engState = .execute → s.opc = 3 → tick s = some { s with engState := .ioXfer }) ∧
  (∀ (s : State) (a : Operand), a.toNat < s.cfg.memWords →
    (s.cfg.regInit = .zero ∨ (s.written.ac = true ∧ s.written.ioTemp = true)) →
      ∃ t, exec (.storeIo a) s = .next t ∧ Completes s .storeIo a t ∧ ResolveFilled s a t ∧
        SameMemory s t ∧ t.ac = s.ioTemp ∧ t.mq = s.mq ∧ t.ioRegister = s.ac ∧ t.ioTemp = s.ioTemp ∧
        t.floatAC = s.floatAC ∧ t.floatMQ = s.floatMQ ∧ t.out = s.out ++ [.io t.ioRegister]) ∧
  (∀ (s : State) (a : Operand), s.cfg.memWords ≤ a.toNat →
    exec (.storeIo a) s = .next { s with fault := some .addressOutOfRange, engState := .faulted }) ∧
  (∀ (s : State) (a : Operand), a.toNat < s.cfg.memWords → s.cfg.regInit = .unwritten →
    (s.written.ac = false ∨ s.written.ioTemp = false) → ∃ t, exec (.storeIo a) s = .next t ∧ FaultsAfterResolve s a .unwrittenRead t)

/-! ### Rules over all instructions -/

/-- R40, R205: under REG_INIT = Unwritten a read of a register without its mark raises UNWRITTEN_READ,
before anything is written and before any test of the resolved value (R207). -/
def Obligations.UnwrittenReadRaises : Prop :=
  ∀ (i : Instr) (s : State) (r : Reg), i.operand.toNat < s.cfg.memWords →
    s.cfg.regInit = .unwritten → r ∈ regsRead i.mnemonic → s.written.get r = false →
      ∃ t, exec i s = .next t ∧ FaultsAfterResolve s i.operand .unwrittenRead t

/-- R205: under REG_INIT = Zero no instruction raises UNWRITTEN_READ. -/
def Obligations.ZeroInitNeverRaisesUnwrittenRead : Prop :=
  ∀ (i : Instr) (s t : State), s.cfg.regInit = .zero → s.fault ≠ some .unwrittenRead →
    exec i s = .next t → t.fault ≠ some .unwrittenRead

/-- R202, R207: DIVIDE_BY_ZERO is raised by DIVIDE and DIVIDE_FLOAT alone, on a resolved value of 0, an
operand in range and readable registers. -/
def Obligations.DivideByZeroHasOneCause : Prop :=
  ∀ (i : Instr) (s t : State), s.fault = none → exec i s = .next t → t.fault = some .divideByZero →
    divides i.mnemonic = true ∧ s.view i.operand = 0 ∧ i.operand.toNat < s.cfg.memWords ∧
      s.readable (regsRead i.mnemonic) = true ∧ FaultsAfterResolve s i.operand .divideByZero t

/-- R117, R118, R200: an instruction ends in one of two ways: retired, PC one further and the engine at
FETCH with FAULT as it was, or in FAULTED with a cause recorded and PC, the registers, the marks, the
memory and OUT as they were. -/
def Obligations.InstructionRetiresOrFaults : Prop :=
  ∀ (i : Instr) (s : State), ∃ t, exec i s = .next t ∧
    ((t.engState = .fetch ∧ t.pc = s.pc + 1 ∧ t.fault = s.fault) ∨
      (t.engState = .faulted ∧ t.fault.isSome = true ∧ t.pc = s.pc ∧ t.written = s.written ∧
        SameMemory s t ∧ t.out = s.out ∧ ∀ r, t.regContent r = s.regContent r))

/-- R39: no instruction changes a register outside its W columns, and none but STORE writes the Memory
Store or a line's DATA other than by a fill (R67). -/
def Obligations.RegisterUseFollowsTheTable : Prop :=
  ∀ (i : Instr) (s t : State), exec i s = .next t →
    (∀ r, r ∉ regsWritten i.mnemonic → t.regContent r = s.regContent r) ∧
    (i.mnemonic ≠ .store → SameMemory s t ∧
      ∀ k, t.line k = s.line k ∨
        (k = i.operand.toNat % s.cfg.cacheLines ∧ t.line k = ⟨true, i.operand, s.memRead i.operand⟩))

/-- R41, R78: no step changes the program or the configuration. -/
def Obligations.StepKeepsTheProgram : Prop :=
  ∀ s t : State, step s = .next t → t.prog = s.prog ∧ t.cfg = s.cfg

/-- R35, R184: an instruction appends to OUT, and removes nothing: one event where a PRINT, a float
instruction, a LOAD_IO or a STORE_IO completes, none otherwise. -/
def Obligations.OutGrowsByTheEventsOfTheTable : Prop :=
  ∀ (i : Instr) (s t : State), exec i s = .next t →
    ∃ es, t.out = s.out ++ es ∧
      es.length = if t.engState = .fetch ∧ i.mnemonic ∈ [.print, .addFloat, .subtractFloat,
        .multiplyFloat, .divideFloat, .loadIo, .storeIo] then 1 else 0

/-- R80: the hit and miss counts and the resident addresses depend on the operand addresses alone: two
runs over lists of instructions with the same operands, from states that agree on the configuration,
the counters and which address each line holds, agree on them at the end, whatever the opcodes and
the data. -/
def Obligations.CountsDependOnTheAddressesAlone : Prop :=
  ∀ (is js : List Instr) (s t s' t' : State), is.map Instr.operand = js.map Instr.operand →
    s.cfg = t.cfg → s.hits = t.hits → s.misses = t.misses →
    (∀ k, (s.line k).valid = (t.line k).valid ∧ (s.line k).tag = (t.line k).tag) →
    execAll is s = some s' → execAll js t = some t' →
      s'.hits = t'.hits ∧ s'.misses = t'.misses ∧
        ∀ k, (s'.line k).valid = (t'.line k).valid ∧ (s'.line k).tag = (t'.line k).tag

/-- R221: over a run that ends in HALTED, HITS and MISSES together grow by the number of instructions
executed, where the counters do not wrap. -/
def Obligations.HaltedRunCountsEveryInstruction : Prop :=
  ∀ (n : Nat) (s t : State), s.engState = .fetch → progWellFormed s.prog = true →
    s.pc.toNat ≤ s.prog.length →
    s.hits + s.misses + (s.prog.length - s.pc.toNat) < 2 ^ s.cfg.counterWidth →
    Host.Core.run Sys2Proof.core n s = .next t → t.engState = .halted →
      t.hits + t.misses = s.hits + s.misses + (s.prog.length - s.pc.toNat)

/-! ### Consistency between cache and memory -/

/-- R134 (first half), R74: after a STORE to an address, and any words that neither store to it nor resolve
another address of its slot, the address reads as the stored AC. Words with an unassigned opcode, which
complete under the policy Nop (R96), may stand among them. -/
def Obligations.StoredValueIsReadBack : Prop :=
  ∀ (a : Operand) (ws : List Word) (s u : State),
    (∀ w ∈ ws, (opndField w = a ∧ opcField w ≠ 33) ∨
      (opndField w).toNat % s.cfg.cacheLines ≠ a.toNat % s.cfg.cacheLines) →
    runWords (encode (.store a) :: ws) s = some u → u.view a = s.ac ∧ u.hitsAt a = true

/-- R72, R134 (second half), R240: after a STORE to an address and an instruction on another address of
its slot, the address reads as MEM holds it: the stored AC where the STORE missed, and the older value
where it hit. -/
def Obligations.EvictionLosesAStoreHit : Prop :=
  ∀ (a : Operand) (i : Instr) (s u : State), s.mem.wf = true → i.operand ≠ a →
    i.operand.toNat % s.cfg.cacheLines = a.toNat % s.cfg.cacheLines →
    execAll [.store a, i] s = some u →
      u.view a = u.memRead a ∧ u.memRead a = if s.hitsAt a then s.memRead a else s.ac

/-- R71: divergence is created only by a STORE that hits. That the stored AC then differs from MEM[a] is
R133's wording of the case and the model's reading of R71, whose own bullet speaks of the line's DATA
(notes/assumptions/19.md, DEDUCED). -/
def Obligations.DivergenceComesFromStoreHits : Prop :=
  ∀ (i : Instr) (s t : State) (k : Nat), s.Inv → exec i s = .next t → t.divergent k = true →
    s.divergent k = true ∨
      (i.mnemonic = .store ∧ s.hitsAt i.operand = true ∧ k = i.operand.toNat % s.cfg.cacheLines ∧
        s.ac ≠ s.memRead i.operand)

/-- R183: LOAD_IO then STORE_IO restores AC and leaves IORegister; STORE_IO then LOAD_IO puts the old
AC in IORegister and leaves AC and IOtemp. Both events carry the value named. -/
def Obligations.IoExchangesUndoEachOther : Prop :=
  ∀ (a b : Operand) (s u : State),
    (execAll [.loadIo a, .storeIo b] s = some u →
      u.ac = s.ac ∧ u.ioRegister = s.ioRegister ∧ u.ioTemp = s.ac ∧
        u.out = s.out ++ [.io s.ioRegister, .io s.ioRegister]) ∧
    (execAll [.storeIo a, .loadIo b] s = some u →
      u.ac = s.ac ∧ u.ioRegister = s.ac ∧ u.ioTemp = s.ioTemp ∧
        u.out = s.out ++ [.io s.ac, .io s.ac])

/-! ### The engine -/

/-- R96, R112, R113, R119: at FETCH with a word left, a step latches the word in IR, OPC and OPND and runs
it on the latched state: that instruction's `exec` where it decodes to one, and the unassigned opcode's
path through RESOLVE and the policy where it does not. -/
def Obligations.StepRunsTheDecodedInstruction : Prop :=
  ∀ (s : State) (w : Word), s.engState = .fetch → s.fetchWord? = some w →
    step s = runWord w { s with ir := w, opc := opcField w, opnd := opndField w } ∧
    (∀ i : Instr, decode w = .ok i →
      step s = exec i { s with ir := w, opc := opcField w, opnd := opndField w }) ∧
    (∀ o : Opcode, decode w = .error (.unassignedOpcode o) → o = opcField w ∧
      step s = execUnassigned (opndField w)
        { s with ir := w, opc := opcField w, opnd := opndField w })

/-- The interface's `withFetchWord`: the word it places is the one the next FETCH reads. -/
def Obligations.PlacedWordIsFetched : Prop :=
  ∀ (s : State) (w : Nat), w < 2 ^ 32 →
    (s.withFetchWord 32 w).fetchWord? = some (BitVec.ofNat 32 w) ∧
      (s.withFetchWord 32 w).engState = .fetch ∧ (s.withFetchWord 32 w).pc = s.pc

/-- R112: FETCH reads PROG[PC] into IR and enters DECODE where PC < PLEN, and enters HALTED otherwise,
changing nothing else. -/
def Obligations.FetchReadsOrHalts : Prop :=
  ∀ s : State, s.engState = .fetch →
    (∀ h : s.pc.toNat < s.prog.length,
      tick s = some { s with ir := s.prog[s.pc.toNat], engState := .decode }) ∧
    (s.prog.length ≤ s.pc.toNat →
      tick s = some { s with engState := .halted } ∧ step s = .next { s with engState := .halted })

/-- R113, R114: DECODE splits IR and never faults; RESOLVE checks the range, raises or resolves OPND,
and enters EXECUTE. -/
def Obligations.DecodeAndResolveTransitions : Prop :=
  ∀ s : State,
    (s.engState = .decode → tick s = some { s with
      opc := opcField s.ir, opnd := opndField s.ir, engState := .resolve }) ∧
    (s.engState = .resolve → s.opnd.toNat < s.cfg.memWords →
      tick s = some { s.resolve s.opnd with engState := .execute }) ∧
    (s.engState = .resolve → s.cfg.memWords ≤ s.opnd.toNat →
      tick s = some { s with fault := some .addressOutOfRange, engState := .faulted })

/-- R120: HALTED and FAULTED have no transition and no step. -/
def Obligations.TerminalStatesAreStuck : Prop :=
  ∀ s : State,
    (s.engState = .halted → tick s = none ∧ step s = .fault .stuckHalted) ∧
    (s.engState = .faulted → tick s = none ∧ step s = .fault .stuckFaulted)

/-- R119: from FETCH, the model's whole-instruction step is the engine's own transitions taken one by one
to the next instruction boundary: 4 of them, 5 where the opcode is an I/O transfer's, 3 where RESOLVE
raises, and 1 where the program is exhausted. -/
def Obligations.StepIsTheEngineTransitions : Prop :=
  ∀ s : State, s.engState = .fetch →
    ∃ n t, 1 ≤ n ∧ n ≤ 5 ∧ ticks n s = some t ∧ t.atBoundary = true ∧ step s = .next t ∧
      (∀ k u, 0 < k → k < n → ticks k s = some u → u.atBoundary = false) ∧
      (s.fetchWord? = none → n = 1) ∧
      ∀ w, s.fetchWord? = some w →
        n = if s.cfg.memWords ≤ (opndField w).toNat then 3
          else if opcField w = 2 ∨ opcField w = 3 then 5 else 4

/-- R206, R207, R117, R208: after a fault PC holds the index of the faulting instruction, IR its word, OPC
and OPND its fields, and, where RESOLVE completed, HIT and SLOT its result. The code of FAULT that the
host reads (R36, R222) is that of the first cause in cycle order: 2 for an operand out of range; else 3
for an unassigned opcode; else 4 for an unreadable register; else 1 for a division by 0. -/
def Obligations.FaultRecordsTheInstruction : Prop :=
  ∀ (s t : State) (w : Word), s.engState = .fetch → s.fetchWord? = some w → step s = .next t →
    t.engState = .faulted →
      t.fault.isSome = true ∧ t.engState.code = 6 ∧ t.pc = s.pc ∧ t.ir = w ∧
        t.opc = opcField w ∧ t.opnd = opndField w ∧
        ((opndField w).toNat < s.cfg.memWords →
          t.hit = s.hitsAt (opndField w) ∧ t.slot = (opndField w).toNat % s.cfg.cacheLines) ∧
        (t.report.faultCode = 2 ↔ s.cfg.memWords ≤ (opndField w).toNat) ∧
        (t.report.faultCode = 3 ↔ (opndField w).toNat < s.cfg.memWords ∧
          decode w = .error (.unassignedOpcode (opcField w))) ∧
        (t.report.faultCode = 4 ↔ (opndField w).toNat < s.cfg.memWords ∧
          ∃ i, decode w = .ok i ∧ s.readable (regsRead i.mnemonic) = false) ∧
        (t.report.faultCode = 1 ↔ (opndField w).toNat < s.cfg.memWords ∧
          ∃ i, decode w = .ok i ∧ s.readable (regsRead i.mnemonic) = true ∧
            divides i.mnemonic = true ∧ s.view (opndField w) = 0)

/-- R123: a run ends, in at most one step an instruction left and one more, and in at most five
transitions of the engine an instruction left and one more. -/
def Obligations.EveryRunEnds : Prop :=
  ∀ s : State, s.engState = .fetch → progWellFormed s.prog = true →
    (∃ n t, n ≤ s.prog.length - s.pc.toNat + 1 ∧ Host.Core.run Sys2Proof.core n s = .next t ∧
      t.ended = true) ∧
    (∃ n t, n ≤ 5 * (s.prog.length - s.pc.toNat) + 1 ∧ ticks n s = some t ∧ t.ended = true)

/-- R23, R28, R30 to R36, R40: every step keeps the invariant. -/
def Obligations.StepKeepsTheInvariant : Prop :=
  ∀ s t : State, s.Inv → step s = .next t → t.Inv

/-- R23, R28, R30 to R36, R40: every transition of the engine keeps the invariant. -/
def Obligations.TransitionKeepsTheInvariant : Prop :=
  ∀ s t : State, s.Inv → tick s = some t → t.Inv

/-- The invariant holds at `State.reset`, which is the launch of an empty program over an all-zero image
under `Config.reference`: the model's choices (notes/assumptions/1.md, 3.md). -/
def Obligations.ResetHasTheInvariant : Prop :=
  State.reset.Inv ∧ State.reset = State.launch Config.reference [] []

/-- R230, R232: the invariant holds at every launch that the model accepts. -/
def Obligations.LaunchHasTheInvariant : Prop :=
  ∀ (cfg : Config) (memFeed progFeed : List Int) (s : State),
    launchFeeds cfg memFeed progFeed = .ok s → s.Inv

/-- R230, R231, R32, R36: the values reset gives, under every configuration and every launch input, the
codes of ENG_STATE and FAULT among them. -/
def Obligations.LaunchGivesTheResetValues : Prop :=
  ∀ (cfg : Config) (m : Memory) (p : List Word),
    (State.launch cfg m p).engState = .fetch ∧ (State.launch cfg m p).engState.code = 0 ∧
    (State.launch cfg m p).pc = 0 ∧
    (∀ k, (State.launch cfg m p).line k = ⟨false, 0, 0⟩) ∧
    (∀ i, (State.launch cfg m p).mem.read i = m.read i) ∧
    (State.launch cfg m p).hits = 0 ∧ (State.launch cfg m p).misses = 0 ∧
    (cfg.regInit = .zero → ∀ r, (State.launch cfg m p).regContent r =
      match r with
      | .floatAC => .float FloatVal.zero
      | .floatMQ => .float FloatVal.zero
      | _ => .word 0) ∧
    (∀ r, (State.launch cfg m p).written.get r = false) ∧
    (State.launch cfg m p).ir = 0 ∧ (State.launch cfg m p).opc = 0 ∧
    (State.launch cfg m p).opnd = 0 ∧ (State.launch cfg m p).hit = false ∧
    (State.launch cfg m p).slot = 0 ∧ (State.launch cfg m p).out = [] ∧
    (State.launch cfg m p).fault = none ∧ (State.launch cfg m p).report.faultCode = 0

/-- R232, R98: a launch puts value i of the memory feed in MEM[i] and value i of the program feed in
PROG[i], and it is accepted exactly where the configuration, the lengths and the values are in range.
That a memory feed longer than MEM_WORDS is refused is the model's choice (notes/assumptions/20.md,
DESIGN CHOICE). -/
def Obligations.LaunchCopiesTheFeeds : Prop :=
  ∀ (cfg : Config) (memFeed progFeed : List Int),
    (∀ s, launchFeeds cfg memFeed progFeed = .ok s →
      s = State.launch cfg s.mem s.prog ∧ cfg.wellFormed = true ∧
      memFeed.length = cfg.memWords ∧ progFeed.length ≤ 2 ^ 31 - 1 ∧
      (∀ n ∈ memFeed ++ progFeed, -(2 ^ 31) ≤ n ∧ n ≤ 2 ^ 31 - 1) ∧
      (∀ (i : Nat) (h : i < memFeed.length), (s.mem.read i).toInt = memFeed[i]) ∧
      s.prog.map BitVec.toInt = progFeed) ∧
    (cfg.wellFormed = true → memFeed.length = cfg.memWords → progFeed.length ≤ 2 ^ 31 - 1 →
      (∀ n ∈ memFeed ++ progFeed, -(2 ^ 31) ≤ n ∧ n ≤ 2 ^ 31 - 1) →
        ∃ s, launchFeeds cfg memFeed progFeed = .ok s)

/-- R213: the memory dump is MEM[1] to MEM[MEM_WORDS - 1], from MEM and not from the cache. -/
def Obligations.MemoryDumpSkipsAddressZero : Prop :=
  ∀ s : State, s.memoryDump.length = s.cfg.memWords - 1 ∧
    ∀ (i : Nat) (h : i < s.memoryDump.length), s.memoryDump[i] = s.mem.read (i + 1)

/-! ### Arithmetic and the Numeric Codec -/

/-- R9, R144: sum, difference and product wrap modulo 2^32. -/
def Obligations.IntegerResultsWrap : Prop :=
  ∀ a b : Word, addW a b = a + b ∧ subW a b = a - b ∧ mulW a b = a * b

/-- R145: the quotient rounded toward zero fits, but for -2^31 by -1, which wraps to -2^31. -/
def Obligations.QuotientRoundsTowardZero : Prop :=
  ∀ n d : Word, d.toInt ≠ 0 →
    ((n.toInt ≠ -(2 ^ 31) ∨ d.toInt ≠ -1) → (divT n d).toInt = n.toInt.tdiv d.toInt) ∧
    (n.toInt = -(2 ^ 31) → d.toInt = -1 → (divT n d).toInt = -(2 ^ 31))

/-- R146: the mask leaves the low 12 bits, a value in 0 to 4095, never negative. -/
def Obligations.MaskKeepsTwelveBits : Prop :=
  ∀ w : Word, (mask12 w).toNat = w.toNat % 4096 ∧ 0 ≤ (mask12 w).toInt ∧ (mask12 w).toInt ≤ 4095

/-- R160: the codec's exact value, and that it is positive. -/
def Obligations.CodecValueFollowsTheFormula : Prop :=
  ∀ (cfg : Config) (w : Word),
    (codecValue cfg w).toRat =
      (1 + ∑ i ∈ Finset.range 23, if w.getLsbD i then (2 : ℚ) ^ (-((i : ℤ) + 1)) else 0) *
        (2 : ℚ) ^ (codecExp cfg w - 127) ∧
    0 < (codecValue cfg w).toRat ∧ decodeFloat cfg w = toFloat cfg (codecValue cfg w)

/-- R161: the corner cases of the mantissa; bits 31:23 never contribute. -/
def Obligations.MantissaCornerCases : Prop :=
  ∀ w : Word,
    (w.toNat % 2 ^ 23 = 0 → (mant w).toRat = 0) ∧
    (w.toNat % 2 ^ 23 = 1 → (mant w).toRat = 1 / 2) ∧
    (w.toNat % 2 ^ 23 = 2 ^ 22 → (mant w).toRat = 1 / 2 ^ 23) ∧
    (w.toNat % 2 ^ 23 = 2 ^ 23 - 1 → (mant w).toRat = 1 - 1 / 2 ^ 23) ∧
    (∀ w' : Word, w'.toNat % 2 ^ 23 = w.toNat % 2 ^ 23 → mant w' = mant w)

/-! ### Codes -/

/-- R32, R36: the codes of ENG_STATE, of which 7 is never used, and of the FAULT register, which the host
reads (R222). -/
def Obligations.EngineAndFaultCodesFollowTheTables : Prop :=
  (EngState.fetch.code = 0 ∧ EngState.decode.code = 1 ∧ EngState.resolve.code = 2 ∧
    EngState.execute.code = 3 ∧ EngState.ioXfer.code = 4 ∧ EngState.halted.code = 5 ∧
    EngState.faulted.code = 6 ∧ ∀ e : EngState, e.code ≠ 7) ∧
  ∀ s : State,
    (s.fault = none → s.report.faultCode = 0) ∧
    (s.fault = some .divideByZero → s.report.faultCode = 1) ∧
    (s.fault = some .addressOutOfRange → s.report.faultCode = 2) ∧
    (s.fault = some .illegalOpcode → s.report.faultCode = 3) ∧
    (s.fault = some .unwrittenRead → s.report.faultCode = 4)
end

