-- ==== Sys2Proof/Laws/Cells.lean ====
section
/-!
SUPPORT. The laws of the sparse arrays: a read after a write, and that every write keeps the canonical
form and the bound on the indices.
-/

namespace Sys2Proof.Machine

variable {α : Type} [DecidableEq α] {d : α}

theorem Cells.read_cons (i : Nat) (v : α) (rest : List (Nat × α)) (j : Nat)
    (h : v ≠ d ∨ Cells.read d rest i = d) :
    Cells.read d (Cells.cons d i v rest) j = if j = i then v else Cells.read d rest j := by
  unfold Cells.cons
  split
  · subst_vars
    simp only [ne_eq, not_true_eq_false, false_or] at h
    split
    · subst_vars
      exact h
    · rfl
  · rfl

/-- An index below every listed one is unlisted. -/
theorem Cells.read_of_wfFrom : ∀ (m : List (Nat × α)) (lo i : Nat),
    Cells.wfFrom d lo m = true → i < lo → Cells.read d m i = d
  | [], _, _, _, _ => rfl
  | (k, v) :: rest, lo, i, h, hi => by
    simp only [Cells.wfFrom, Bool.and_eq_true, decide_eq_true_eq] at h
    have hk : i ≠ k := by omega
    simp only [Cells.read, hk, if_false]
    exact Cells.read_of_wfFrom rest (k + 1) i h.2 (by omega)

theorem Cells.wfFrom_mono : ∀ (m : List (Nat × α)) (lo lo' : Nat),
    Cells.wfFrom d lo m = true → lo' ≤ lo → Cells.wfFrom d lo' m = true
  | [], _, _, _, _ => rfl
  | (k, v) :: rest, lo, lo', h, hl => by
    simp only [Cells.wfFrom, Bool.and_eq_true, decide_eq_true_eq] at h ⊢
    exact ⟨⟨by omega, h.1.2⟩, h.2⟩

/-- A write that does not put the unlisted content: the read after it needs no canonical form. -/
theorem Cells.read_write_ne : ∀ (m : List (Nat × α)) (i j : Nat) (v : α), v ≠ d →
    Cells.read d (Cells.write d m i v) j = if j = i then v else Cells.read d m j
  | [], i, j, v, hv => by
    simp only [Cells.write]
    exact Cells.read_cons i v [] j (.inl hv)
  | (k, u) :: rest, i, j, v, hv => by
    simp only [Cells.write]
    split
    · exact Cells.read_cons i v _ j (.inl hv)
    · split
      · subst_vars
        rw [Cells.read_cons _ v rest j (.inl hv)]
        simp only [Cells.read]
        split <;> rfl
      · rename_i hne
        simp only [Cells.read, Cells.read_write_ne rest i j v hv]
        by_cases hj : j = i
        · subst hj
          simp [hne]
        · simp [hj]

theorem Cells.read_write_from : ∀ (m : List (Nat × α)) (lo i j : Nat) (v : α),
    Cells.wfFrom d lo m = true →
    Cells.read d (Cells.write d m i v) j = if j = i then v else Cells.read d m j
  | [], lo, i, j, v, _ => by
    simp only [Cells.write]
    exact Cells.read_cons i v [] j (.inr rfl)
  | (k, u) :: rest, lo, i, j, v, h => by
    have hall := h
    simp only [Cells.wfFrom, Bool.and_eq_true, decide_eq_true_eq] at h
    simp only [Cells.write]
    split
    · rename_i hik
      refine Cells.read_cons i v _ j (.inr ?_)
      have hne : i ≠ k := by omega
      simp only [Cells.read, hne, if_false]
      exact Cells.read_of_wfFrom rest (k + 1) i h.2 (by omega)
    · split
      · subst_vars
        rw [Cells.read_cons _ v rest j (.inr (Cells.read_of_wfFrom rest _ _ h.2 (by omega)))]
        simp only [Cells.read]
        split <;> rfl
      · rename_i hne
        simp only [Cells.read, Cells.read_write_from rest (k + 1) i j v h.2]
        by_cases hj : j = i
        · subst hj
          simp [hne]
        · simp [hj]

/-- Reading after a write: the written index holds the value, every other one what it held. -/
theorem Cells.read_write (m : List (Nat × α)) (i j : Nat) (v : α) (h : Cells.wf d m = true) :
    Cells.read d (Cells.write d m i v) j = if j = i then v else Cells.read d m j :=
  Cells.read_write_from m 0 i j v h

theorem Cells.wfFrom_cons {lo : Nat} (i : Nat) (v : α) (rest : List (Nat × α)) (hl : lo ≤ i)
    (h : Cells.wfFrom d (i + 1) rest = true) : Cells.wfFrom d lo (Cells.cons d i v rest) = true := by
  unfold Cells.cons
  split
  · exact Cells.wfFrom_mono rest _ _ h (by omega)
  · rename_i hv
    simp [Cells.wfFrom, hl, hv, h]

theorem Cells.wfFrom_write : ∀ (m : List (Nat × α)) (lo i : Nat) (v : α),
    Cells.wfFrom d lo m = true → lo ≤ i → Cells.wfFrom d lo (Cells.write d m i v) = true
  | [], lo, i, v, _, hl => Cells.wfFrom_cons i v [] hl rfl
  | (k, u) :: rest, lo, i, v, h, hl => by
    have hall := h
    simp only [Cells.wfFrom, Bool.and_eq_true, decide_eq_true_eq] at h
    simp only [Cells.write]
    split
    · refine Cells.wfFrom_cons i v _ hl ?_
      simp only [Cells.wfFrom, Bool.and_eq_true, decide_eq_true_eq]
      exact ⟨⟨by omega, h.1.2⟩, h.2⟩
    · split
      · subst_vars
        exact Cells.wfFrom_cons _ v rest hl h.2
      · simp only [Cells.wfFrom, Bool.and_eq_true, decide_eq_true_eq]
        exact ⟨h.1, Cells.wfFrom_write rest (k + 1) i v h.2 (by omega)⟩

/-- A write keeps the canonical form. -/
theorem Cells.wf_write (m : List (Nat × α)) (i : Nat) (v : α) (h : Cells.wf d m = true) :
    Cells.wf d (Cells.write d m i v) = true :=
  Cells.wfFrom_write m 0 i v h (Nat.zero_le i)

theorem Cells.below_cons (n i : Nat) (v : α) (rest : List (Nat × α)) (hi : i < n)
    (h : Cells.below n rest = true) : Cells.below n (Cells.cons d i v rest) = true := by
  unfold Cells.cons
  split
  · exact h
  · simp only [Cells.below, List.all_cons, Bool.and_eq_true, decide_eq_true_eq] at h ⊢
    exact ⟨hi, h⟩

/-- A write below a bound keeps every listed index below it. -/
theorem Cells.below_write (n : Nat) : ∀ (m : List (Nat × α)) (i : Nat) (v : α), i < n →
    Cells.below n m = true → Cells.below n (Cells.write d m i v) = true
  | [], i, v, hi, h => Cells.below_cons n i v [] hi h
  | (k, u) :: rest, i, v, hi, h => by
    have h' := h
    simp only [Cells.below, List.all_cons, Bool.and_eq_true, decide_eq_true_eq] at h'
    simp only [Cells.write]
    split
    · exact Cells.below_cons n i v _ hi h
    · split
      · exact Cells.below_cons n i v rest hi h'.2
      · simp only [Cells.below, List.all_cons, Bool.and_eq_true, decide_eq_true_eq]
        exact ⟨h'.1, Cells.below_write n rest i v hi h'.2⟩

/-- Every operation that makes a memory keeps the canonical form. -/
theorem Memory.wf_write (m : Memory) (a : Nat) (v : Word) (h : m.wf = true) :
    (m.write a v).wf = true := Cells.wf_write m a v h

theorem Memory.read_write (m : Memory) (a b : Nat) (v : Word) (h : m.wf = true) :
    (m.write a v).read b = if b = a then v else m.read b := Cells.read_write m a b v h

theorem CacheArray.wf_write (c : CacheArray) (k : Nat) (l : Line) (h : c.wf = true) :
    (c.write k l).wf = true := Cells.wf_write c k l h

theorem CacheArray.read_write (c : CacheArray) (k j : Nat) (l : Line) (h : c.wf = true) :
    (c.write k l).read j = if j = k then l else c.read j := Cells.read_write c k j l h

/-- A valid line is always listed, so reading it back needs no canonical form. -/
theorem CacheArray.read_write_valid (c : CacheArray) (k j : Nat) (l : Line) (h : l.valid = true) :
    (c.write k l).read j = if j = k then l else c.read j := by
  refine Cells.read_write_ne c k j l ?_
  rintro rfl
  exact absurd h (by decide)

/-- The empty memory is canonical. -/
theorem Memory.wf_nil : Memory.wf [] = true := rfl

/-- The empty cache is canonical. -/
theorem CacheArray.wf_nil : CacheArray.wf [] = true := rfl

end Sys2Proof.Machine
end

