-- ==== Sys2Proof/Laws/Launch.lean ====
section
/-!
SUPPORT. The memory image a feed makes: its cells, its canonical form and its bound
(spec/70_reset_and_hazards.md R232).
-/

namespace Sys2Proof.Machine

theorem memoryOf_wfFrom : ∀ (ws : List Word) (a : Nat),
    Cells.wfFrom Memory.default a (memoryOf a ws) = true
  | [], _ => rfl
  | w :: rest, a => Cells.wfFrom_cons a w _ (Nat.le_refl a) (memoryOf_wfFrom rest (a + 1))

/-- The image is canonical. -/
theorem memoryOf_wf (ws : List Word) : Memory.wf (memoryOf 0 ws) = true := memoryOf_wfFrom ws 0

/-- The image lists no address past the feed. -/
theorem memoryOf_below : ∀ (ws : List Word) (a n : Nat), a + ws.length ≤ n →
    Cells.below n (memoryOf a ws) = true
  | [], _, _, _ => rfl
  | w :: rest, a, n, h => by
    simp only [List.length_cons] at h
    exact Cells.below_cons n a w _ (by omega) (memoryOf_below rest (a + 1) n (by omega))

theorem memoryOf_read_from : ∀ (ws : List Word) (a i : Nat) (h : i < ws.length),
    Cells.read Memory.default (memoryOf a ws) (a + i) = ws[i]
  | [], _, _, h => absurd h (Nat.not_lt_zero _)
  | w :: rest, a, i, h => by
    have hr : Cells.read Memory.default (memoryOf (a + 1) rest) a = Memory.default :=
      Cells.read_of_wfFrom _ (a + 1) a (memoryOf_wfFrom rest (a + 1)) (Nat.lt_succ_self a)
    simp only [memoryOf]
    rw [Cells.read_cons a w _ _ (.inr hr)]
    cases i with
    | zero => simp
    | succ i =>
      have hi : i < rest.length := by simpa using h
      have hne : a + (i + 1) ≠ a := by omega
      have := memoryOf_read_from rest (a + 1) i hi
      simp only [hne, if_false, List.getElem_cons_succ]
      rw [← this]
      congr 1
      omega

/-- Value i of the feed stands at address i. -/
theorem memoryOf_read (ws : List Word) (i : Nat) (h : i < ws.length) :
    (memoryOf 0 ws).read i = ws[i] := by
  simpa [Memory.read] using memoryOf_read_from ws 0 i h

/-- A feed that is read has every value in range, and its Words read back as the feed. -/
theorem feedWords_some : ∀ {l : List Int} {ws : List Word}, feedWords l = some ws →
    ws.map BitVec.toInt = l ∧ ∀ n ∈ l, feedWellFormed n = true
  | [], ws, h => by
    cases h
    simp
  | n :: rest, ws, h => by
    unfold feedWords at h
    split at h
    · rename_i w ws' hw hr
      cases h
      obtain ⟨hmap, hall⟩ := feedWords_some hr
      unfold feedWord at hw
      split at hw
      · rename_i hn
        cases hw
        have hn' := hn
        simp only [feedWellFormed, Bool.and_eq_true, decide_eq_true_eq] at hn'
        have hw : (BitVec.ofInt 32 n).toInt = n := by
          rw [BitVec.toInt_ofInt]
          apply Int.bmod_eq_of_le <;> omega
        exact ⟨by simp [hmap, hw], by simpa [hn] using hall⟩
      · cases hw
    · cases h

/-- What an accepted launch is. -/
theorem launchFeeds_ok {cfg : Config} {memFeed progFeed : List Int} {s : State}
    (h : launchFeeds cfg memFeed progFeed = .ok s) :
    ∃ m p, cfg.wellFormed = true ∧ memFeed.length = cfg.memWords ∧ feedWords memFeed = some m ∧
      feedWords progFeed = some p ∧ progWellFormed p = true ∧
      s = State.launch cfg (memoryOf 0 m) p := by
  unfold launchFeeds at h
  split at h
  · cases h
  · split at h
    · cases h
    · split at h
      · split at h
        · cases h
          exact ⟨_, _, by simpa using ‹¬cfg.wellFormed = false›, by simpa using ‹¬_ ≠ _›, ‹_›, ‹_›, ‹_›,
            rfl⟩
        · cases h
      · cases h

end Sys2Proof.Machine
end

