-- ==== Sys2Proof/Laws/State.lean ====
section
/-!
SUPPORT. One lemma per field per update of State, so that no proof unfolds a record update.
-/

namespace Sys2Proof.Machine

variable (s : State)

/-! ### `setAC` -/

@[simp] theorem State.setAC_cfg (w : Word) : (s.setAC w).cfg = s.cfg := rfl
@[simp] theorem State.setAC_prog (w : Word) : (s.setAC w).prog = s.prog := rfl
@[simp] theorem State.setAC_ac (w : Word) : (s.setAC w).ac = w := rfl
@[simp] theorem State.setAC_mq (w : Word) : (s.setAC w).mq = s.mq := rfl
@[simp] theorem State.setAC_pc (w : Word) : (s.setAC w).pc = s.pc := rfl
@[simp] theorem State.setAC_ioRegister (w : Word) : (s.setAC w).ioRegister = s.ioRegister := rfl
@[simp] theorem State.setAC_ioTemp (w : Word) : (s.setAC w).ioTemp = s.ioTemp := rfl
@[simp] theorem State.setAC_floatAC (w : Word) : (s.setAC w).floatAC = s.floatAC := rfl
@[simp] theorem State.setAC_floatMQ (w : Word) : (s.setAC w).floatMQ = s.floatMQ := rfl
@[simp] theorem State.setAC_cl (w : Word) : (s.setAC w).cl = s.cl := rfl
@[simp] theorem State.setAC_mem (w : Word) : (s.setAC w).mem = s.mem := rfl
@[simp] theorem State.setAC_hits (w : Word) : (s.setAC w).hits = s.hits := rfl
@[simp] theorem State.setAC_misses (w : Word) : (s.setAC w).misses = s.misses := rfl
@[simp] theorem State.setAC_engState (w : Word) : (s.setAC w).engState = s.engState := rfl
@[simp] theorem State.setAC_ir (w : Word) : (s.setAC w).ir = s.ir := rfl
@[simp] theorem State.setAC_opc (w : Word) : (s.setAC w).opc = s.opc := rfl
@[simp] theorem State.setAC_opnd (w : Word) : (s.setAC w).opnd = s.opnd := rfl
@[simp] theorem State.setAC_hit (w : Word) : (s.setAC w).hit = s.hit := rfl
@[simp] theorem State.setAC_slot (w : Word) : (s.setAC w).slot = s.slot := rfl
@[simp] theorem State.setAC_out (w : Word) : (s.setAC w).out = s.out := rfl
@[simp] theorem State.setAC_fault (w : Word) : (s.setAC w).fault = s.fault := rfl
@[simp] theorem State.setAC_written (w : Word) :
    (s.setAC w).written = markWritten s.cfg.regInit s.written .ac := rfl

/-! ### `setMQ` -/

@[simp] theorem State.setMQ_cfg (w : Word) : (s.setMQ w).cfg = s.cfg := rfl
@[simp] theorem State.setMQ_prog (w : Word) : (s.setMQ w).prog = s.prog := rfl
@[simp] theorem State.setMQ_ac (w : Word) : (s.setMQ w).ac = s.ac := rfl
@[simp] theorem State.setMQ_mq (w : Word) : (s.setMQ w).mq = w := rfl
@[simp] theorem State.setMQ_pc (w : Word) : (s.setMQ w).pc = s.pc := rfl
@[simp] theorem State.setMQ_ioRegister (w : Word) : (s.setMQ w).ioRegister = s.ioRegister := rfl
@[simp] theorem State.setMQ_ioTemp (w : Word) : (s.setMQ w).ioTemp = s.ioTemp := rfl
@[simp] theorem State.setMQ_floatAC (w : Word) : (s.setMQ w).floatAC = s.floatAC := rfl
@[simp] theorem State.setMQ_floatMQ (w : Word) : (s.setMQ w).floatMQ = s.floatMQ := rfl
@[simp] theorem State.setMQ_cl (w : Word) : (s.setMQ w).cl = s.cl := rfl
@[simp] theorem State.setMQ_mem (w : Word) : (s.setMQ w).mem = s.mem := rfl
@[simp] theorem State.setMQ_hits (w : Word) : (s.setMQ w).hits = s.hits := rfl
@[simp] theorem State.setMQ_misses (w : Word) : (s.setMQ w).misses = s.misses := rfl
@[simp] theorem State.setMQ_engState (w : Word) : (s.setMQ w).engState = s.engState := rfl
@[simp] theorem State.setMQ_ir (w : Word) : (s.setMQ w).ir = s.ir := rfl
@[simp] theorem State.setMQ_opc (w : Word) : (s.setMQ w).opc = s.opc := rfl
@[simp] theorem State.setMQ_opnd (w : Word) : (s.setMQ w).opnd = s.opnd := rfl
@[simp] theorem State.setMQ_hit (w : Word) : (s.setMQ w).hit = s.hit := rfl
@[simp] theorem State.setMQ_slot (w : Word) : (s.setMQ w).slot = s.slot := rfl
@[simp] theorem State.setMQ_out (w : Word) : (s.setMQ w).out = s.out := rfl
@[simp] theorem State.setMQ_fault (w : Word) : (s.setMQ w).fault = s.fault := rfl
@[simp] theorem State.setMQ_written (w : Word) :
    (s.setMQ w).written = markWritten s.cfg.regInit s.written .mq := rfl

/-! ### `setIORegister` -/

@[simp] theorem State.setIORegister_cfg (w : Word) : (s.setIORegister w).cfg = s.cfg := rfl
@[simp] theorem State.setIORegister_prog (w : Word) : (s.setIORegister w).prog = s.prog := rfl
@[simp] theorem State.setIORegister_ac (w : Word) : (s.setIORegister w).ac = s.ac := rfl
@[simp] theorem State.setIORegister_mq (w : Word) : (s.setIORegister w).mq = s.mq := rfl
@[simp] theorem State.setIORegister_pc (w : Word) : (s.setIORegister w).pc = s.pc := rfl
@[simp] theorem State.setIORegister_ioRegister (w : Word) :
    (s.setIORegister w).ioRegister = w := rfl
@[simp] theorem State.setIORegister_ioTemp (w : Word) : (s.setIORegister w).ioTemp = s.ioTemp := rfl
@[simp] theorem State.setIORegister_floatAC (w : Word) :
    (s.setIORegister w).floatAC = s.floatAC := rfl
@[simp] theorem State.setIORegister_floatMQ (w : Word) :
    (s.setIORegister w).floatMQ = s.floatMQ := rfl
@[simp] theorem State.setIORegister_cl (w : Word) : (s.setIORegister w).cl = s.cl := rfl
@[simp] theorem State.setIORegister_mem (w : Word) : (s.setIORegister w).mem = s.mem := rfl
@[simp] theorem State.setIORegister_hits (w : Word) : (s.setIORegister w).hits = s.hits := rfl
@[simp] theorem State.setIORegister_misses (w : Word) : (s.setIORegister w).misses = s.misses := rfl
@[simp] theorem State.setIORegister_engState (w : Word) :
    (s.setIORegister w).engState = s.engState := rfl
@[simp] theorem State.setIORegister_ir (w : Word) : (s.setIORegister w).ir = s.ir := rfl
@[simp] theorem State.setIORegister_opc (w : Word) : (s.setIORegister w).opc = s.opc := rfl
@[simp] theorem State.setIORegister_opnd (w : Word) : (s.setIORegister w).opnd = s.opnd := rfl
@[simp] theorem State.setIORegister_hit (w : Word) : (s.setIORegister w).hit = s.hit := rfl
@[simp] theorem State.setIORegister_slot (w : Word) : (s.setIORegister w).slot = s.slot := rfl
@[simp] theorem State.setIORegister_out (w : Word) : (s.setIORegister w).out = s.out := rfl
@[simp] theorem State.setIORegister_fault (w : Word) : (s.setIORegister w).fault = s.fault := rfl
@[simp] theorem State.setIORegister_written (w : Word) :
    (s.setIORegister w).written = markWritten s.cfg.regInit s.written .ioRegister := rfl

/-! ### `setIOtemp` -/

@[simp] theorem State.setIOtemp_cfg (w : Word) : (s.setIOtemp w).cfg = s.cfg := rfl
@[simp] theorem State.setIOtemp_prog (w : Word) : (s.setIOtemp w).prog = s.prog := rfl
@[simp] theorem State.setIOtemp_ac (w : Word) : (s.setIOtemp w).ac = s.ac := rfl
@[simp] theorem State.setIOtemp_mq (w : Word) : (s.setIOtemp w).mq = s.mq := rfl
@[simp] theorem State.setIOtemp_pc (w : Word) : (s.setIOtemp w).pc = s.pc := rfl
@[simp] theorem State.setIOtemp_ioRegister (w : Word) :
    (s.setIOtemp w).ioRegister = s.ioRegister := rfl
@[simp] theorem State.setIOtemp_ioTemp (w : Word) : (s.setIOtemp w).ioTemp = w := rfl
@[simp] theorem State.setIOtemp_floatAC (w : Word) : (s.setIOtemp w).floatAC = s.floatAC := rfl
@[simp] theorem State.setIOtemp_floatMQ (w : Word) : (s.setIOtemp w).floatMQ = s.floatMQ := rfl
@[simp] theorem State.setIOtemp_cl (w : Word) : (s.setIOtemp w).cl = s.cl := rfl
@[simp] theorem State.setIOtemp_mem (w : Word) : (s.setIOtemp w).mem = s.mem := rfl
@[simp] theorem State.setIOtemp_hits (w : Word) : (s.setIOtemp w).hits = s.hits := rfl
@[simp] theorem State.setIOtemp_misses (w : Word) : (s.setIOtemp w).misses = s.misses := rfl
@[simp] theorem State.setIOtemp_engState (w : Word) : (s.setIOtemp w).engState = s.engState := rfl
@[simp] theorem State.setIOtemp_ir (w : Word) : (s.setIOtemp w).ir = s.ir := rfl
@[simp] theorem State.setIOtemp_opc (w : Word) : (s.setIOtemp w).opc = s.opc := rfl
@[simp] theorem State.setIOtemp_opnd (w : Word) : (s.setIOtemp w).opnd = s.opnd := rfl
@[simp] theorem State.setIOtemp_hit (w : Word) : (s.setIOtemp w).hit = s.hit := rfl
@[simp] theorem State.setIOtemp_slot (w : Word) : (s.setIOtemp w).slot = s.slot := rfl
@[simp] theorem State.setIOtemp_out (w : Word) : (s.setIOtemp w).out = s.out := rfl
@[simp] theorem State.setIOtemp_fault (w : Word) : (s.setIOtemp w).fault = s.fault := rfl
@[simp] theorem State.setIOtemp_written (w : Word) :
    (s.setIOtemp w).written = markWritten s.cfg.regInit s.written .ioTemp := rfl

/-! ### `setFloatAC` -/

@[simp] theorem State.setFloatAC_cfg (f : FloatVal) : (s.setFloatAC f).cfg = s.cfg := rfl
@[simp] theorem State.setFloatAC_prog (f : FloatVal) : (s.setFloatAC f).prog = s.prog := rfl
@[simp] theorem State.setFloatAC_ac (f : FloatVal) : (s.setFloatAC f).ac = s.ac := rfl
@[simp] theorem State.setFloatAC_mq (f : FloatVal) : (s.setFloatAC f).mq = s.mq := rfl
@[simp] theorem State.setFloatAC_pc (f : FloatVal) : (s.setFloatAC f).pc = s.pc := rfl
@[simp] theorem State.setFloatAC_ioRegister (f : FloatVal) :
    (s.setFloatAC f).ioRegister = s.ioRegister := rfl
@[simp] theorem State.setFloatAC_ioTemp (f : FloatVal) : (s.setFloatAC f).ioTemp = s.ioTemp := rfl
@[simp] theorem State.setFloatAC_floatAC (f : FloatVal) : (s.setFloatAC f).floatAC = f := rfl
@[simp] theorem State.setFloatAC_floatMQ (f : FloatVal) :
    (s.setFloatAC f).floatMQ = s.floatMQ := rfl
@[simp] theorem State.setFloatAC_cl (f : FloatVal) : (s.setFloatAC f).cl = s.cl := rfl
@[simp] theorem State.setFloatAC_mem (f : FloatVal) : (s.setFloatAC f).mem = s.mem := rfl
@[simp] theorem State.setFloatAC_hits (f : FloatVal) : (s.setFloatAC f).hits = s.hits := rfl
@[simp] theorem State.setFloatAC_misses (f : FloatVal) : (s.setFloatAC f).misses = s.misses := rfl
@[simp] theorem State.setFloatAC_engState (f : FloatVal) :
    (s.setFloatAC f).engState = s.engState := rfl
@[simp] theorem State.setFloatAC_ir (f : FloatVal) : (s.setFloatAC f).ir = s.ir := rfl
@[simp] theorem State.setFloatAC_opc (f : FloatVal) : (s.setFloatAC f).opc = s.opc := rfl
@[simp] theorem State.setFloatAC_opnd (f : FloatVal) : (s.setFloatAC f).opnd = s.opnd := rfl
@[simp] theorem State.setFloatAC_hit (f : FloatVal) : (s.setFloatAC f).hit = s.hit := rfl
@[simp] theorem State.setFloatAC_slot (f : FloatVal) : (s.setFloatAC f).slot = s.slot := rfl
@[simp] theorem State.setFloatAC_out (f : FloatVal) : (s.setFloatAC f).out = s.out := rfl
@[simp] theorem State.setFloatAC_fault (f : FloatVal) : (s.setFloatAC f).fault = s.fault := rfl
@[simp] theorem State.setFloatAC_written (f : FloatVal) :
    (s.setFloatAC f).written = markWritten s.cfg.regInit s.written .floatAC := rfl

/-! ### `setFloatMQ` -/

@[simp] theorem State.setFloatMQ_cfg (f : FloatVal) : (s.setFloatMQ f).cfg = s.cfg := rfl
@[simp] theorem State.setFloatMQ_prog (f : FloatVal) : (s.setFloatMQ f).prog = s.prog := rfl
@[simp] theorem State.setFloatMQ_ac (f : FloatVal) : (s.setFloatMQ f).ac = s.ac := rfl
@[simp] theorem State.setFloatMQ_mq (f : FloatVal) : (s.setFloatMQ f).mq = s.mq := rfl
@[simp] theorem State.setFloatMQ_pc (f : FloatVal) : (s.setFloatMQ f).pc = s.pc := rfl
@[simp] theorem State.setFloatMQ_ioRegister (f : FloatVal) :
    (s.setFloatMQ f).ioRegister = s.ioRegister := rfl
@[simp] theorem State.setFloatMQ_ioTemp (f : FloatVal) : (s.setFloatMQ f).ioTemp = s.ioTemp := rfl
@[simp] theorem State.setFloatMQ_floatAC (f : FloatVal) :
    (s.setFloatMQ f).floatAC = s.floatAC := rfl
@[simp] theorem State.setFloatMQ_floatMQ (f : FloatVal) : (s.setFloatMQ f).floatMQ = f := rfl
@[simp] theorem State.setFloatMQ_cl (f : FloatVal) : (s.setFloatMQ f).cl = s.cl := rfl
@[simp] theorem State.setFloatMQ_mem (f : FloatVal) : (s.setFloatMQ f).mem = s.mem := rfl
@[simp] theorem State.setFloatMQ_hits (f : FloatVal) : (s.setFloatMQ f).hits = s.hits := rfl
@[simp] theorem State.setFloatMQ_misses (f : FloatVal) : (s.setFloatMQ f).misses = s.misses := rfl
@[simp] theorem State.setFloatMQ_engState (f : FloatVal) :
    (s.setFloatMQ f).engState = s.engState := rfl
@[simp] theorem State.setFloatMQ_ir (f : FloatVal) : (s.setFloatMQ f).ir = s.ir := rfl
@[simp] theorem State.setFloatMQ_opc (f : FloatVal) : (s.setFloatMQ f).opc = s.opc := rfl
@[simp] theorem State.setFloatMQ_opnd (f : FloatVal) : (s.setFloatMQ f).opnd = s.opnd := rfl
@[simp] theorem State.setFloatMQ_hit (f : FloatVal) : (s.setFloatMQ f).hit = s.hit := rfl
@[simp] theorem State.setFloatMQ_slot (f : FloatVal) : (s.setFloatMQ f).slot = s.slot := rfl
@[simp] theorem State.setFloatMQ_out (f : FloatVal) : (s.setFloatMQ f).out = s.out := rfl
@[simp] theorem State.setFloatMQ_fault (f : FloatVal) : (s.setFloatMQ f).fault = s.fault := rfl
@[simp] theorem State.setFloatMQ_written (f : FloatVal) :
    (s.setFloatMQ f).written = markWritten s.cfg.regInit s.written .floatMQ := rfl

/-! ### `deliverFloat` -/

@[simp] theorem State.deliverFloat_cfg (f : FloatVal) : (s.deliverFloat f).cfg = s.cfg := rfl
@[simp] theorem State.deliverFloat_prog (f : FloatVal) : (s.deliverFloat f).prog = s.prog := rfl
@[simp] theorem State.deliverFloat_ac (f : FloatVal) : (s.deliverFloat f).ac = s.ac := rfl
@[simp] theorem State.deliverFloat_mq (f : FloatVal) : (s.deliverFloat f).mq = s.mq := rfl
@[simp] theorem State.deliverFloat_pc (f : FloatVal) : (s.deliverFloat f).pc = s.pc := rfl
@[simp] theorem State.deliverFloat_ioRegister (f : FloatVal) :
    (s.deliverFloat f).ioRegister = s.ioRegister := rfl
@[simp] theorem State.deliverFloat_ioTemp (f : FloatVal) :
    (s.deliverFloat f).ioTemp = s.ioTemp := rfl
@[simp] theorem State.deliverFloat_floatAC (f : FloatVal) : (s.deliverFloat f).floatAC = f := rfl
@[simp] theorem State.deliverFloat_floatMQ (f : FloatVal) :
    (s.deliverFloat f).floatMQ = s.floatMQ := rfl
@[simp] theorem State.deliverFloat_cl (f : FloatVal) : (s.deliverFloat f).cl = s.cl := rfl
@[simp] theorem State.deliverFloat_mem (f : FloatVal) : (s.deliverFloat f).mem = s.mem := rfl
@[simp] theorem State.deliverFloat_hits (f : FloatVal) : (s.deliverFloat f).hits = s.hits := rfl
@[simp] theorem State.deliverFloat_misses (f : FloatVal) :
    (s.deliverFloat f).misses = s.misses := rfl
@[simp] theorem State.deliverFloat_engState (f : FloatVal) :
    (s.deliverFloat f).engState = s.engState := rfl
@[simp] theorem State.deliverFloat_ir (f : FloatVal) : (s.deliverFloat f).ir = s.ir := rfl
@[simp] theorem State.deliverFloat_opc (f : FloatVal) : (s.deliverFloat f).opc = s.opc := rfl
@[simp] theorem State.deliverFloat_opnd (f : FloatVal) : (s.deliverFloat f).opnd = s.opnd := rfl
@[simp] theorem State.deliverFloat_hit (f : FloatVal) : (s.deliverFloat f).hit = s.hit := rfl
@[simp] theorem State.deliverFloat_slot (f : FloatVal) : (s.deliverFloat f).slot = s.slot := rfl
@[simp] theorem State.deliverFloat_out (f : FloatVal) :
    (s.deliverFloat f).out = s.out ++ [.float f] := rfl
@[simp] theorem State.deliverFloat_fault (f : FloatVal) : (s.deliverFloat f).fault = s.fault := rfl
@[simp] theorem State.deliverFloat_written (f : FloatVal) :
    (s.deliverFloat f).written = markWritten s.cfg.regInit s.written .floatAC := rfl

/-! ### `emit` -/

@[simp] theorem State.emit_cfg (e : Event) : (s.emit e).cfg = s.cfg := rfl
@[simp] theorem State.emit_prog (e : Event) : (s.emit e).prog = s.prog := rfl
@[simp] theorem State.emit_ac (e : Event) : (s.emit e).ac = s.ac := rfl
@[simp] theorem State.emit_mq (e : Event) : (s.emit e).mq = s.mq := rfl
@[simp] theorem State.emit_pc (e : Event) : (s.emit e).pc = s.pc := rfl
@[simp] theorem State.emit_ioRegister (e : Event) : (s.emit e).ioRegister = s.ioRegister := rfl
@[simp] theorem State.emit_ioTemp (e : Event) : (s.emit e).ioTemp = s.ioTemp := rfl
@[simp] theorem State.emit_floatAC (e : Event) : (s.emit e).floatAC = s.floatAC := rfl
@[simp] theorem State.emit_floatMQ (e : Event) : (s.emit e).floatMQ = s.floatMQ := rfl
@[simp] theorem State.emit_cl (e : Event) : (s.emit e).cl = s.cl := rfl
@[simp] theorem State.emit_mem (e : Event) : (s.emit e).mem = s.mem := rfl
@[simp] theorem State.emit_hits (e : Event) : (s.emit e).hits = s.hits := rfl
@[simp] theorem State.emit_misses (e : Event) : (s.emit e).misses = s.misses := rfl
@[simp] theorem State.emit_engState (e : Event) : (s.emit e).engState = s.engState := rfl
@[simp] theorem State.emit_ir (e : Event) : (s.emit e).ir = s.ir := rfl
@[simp] theorem State.emit_opc (e : Event) : (s.emit e).opc = s.opc := rfl
@[simp] theorem State.emit_opnd (e : Event) : (s.emit e).opnd = s.opnd := rfl
@[simp] theorem State.emit_hit (e : Event) : (s.emit e).hit = s.hit := rfl
@[simp] theorem State.emit_slot (e : Event) : (s.emit e).slot = s.slot := rfl
@[simp] theorem State.emit_out (e : Event) : (s.emit e).out = s.out ++ [e] := rfl
@[simp] theorem State.emit_fault (e : Event) : (s.emit e).fault = s.fault := rfl
@[simp] theorem State.emit_written (e : Event) : (s.emit e).written = s.written := rfl

/-! ### `memWrite` -/

@[simp] theorem State.memWrite_cfg (a : Operand) (v : Word) : (s.memWrite a v).cfg = s.cfg := rfl
@[simp] theorem State.memWrite_prog (a : Operand) (v : Word) : (s.memWrite a v).prog = s.prog := rfl
@[simp] theorem State.memWrite_ac (a : Operand) (v : Word) : (s.memWrite a v).ac = s.ac := rfl
@[simp] theorem State.memWrite_mq (a : Operand) (v : Word) : (s.memWrite a v).mq = s.mq := rfl
@[simp] theorem State.memWrite_pc (a : Operand) (v : Word) : (s.memWrite a v).pc = s.pc := rfl
@[simp] theorem State.memWrite_ioRegister (a : Operand) (v : Word) :
    (s.memWrite a v).ioRegister = s.ioRegister := rfl
@[simp] theorem State.memWrite_ioTemp (a : Operand) (v : Word) :
    (s.memWrite a v).ioTemp = s.ioTemp := rfl
@[simp] theorem State.memWrite_floatAC (a : Operand) (v : Word) :
    (s.memWrite a v).floatAC = s.floatAC := rfl
@[simp] theorem State.memWrite_floatMQ (a : Operand) (v : Word) :
    (s.memWrite a v).floatMQ = s.floatMQ := rfl
@[simp] theorem State.memWrite_cl (a : Operand) (v : Word) : (s.memWrite a v).cl = s.cl := rfl
@[simp] theorem State.memWrite_mem (a : Operand) (v : Word) :
    (s.memWrite a v).mem = s.mem.write a.toNat v := rfl
@[simp] theorem State.memWrite_hits (a : Operand) (v : Word) : (s.memWrite a v).hits = s.hits := rfl
@[simp] theorem State.memWrite_misses (a : Operand) (v : Word) :
    (s.memWrite a v).misses = s.misses := rfl
@[simp] theorem State.memWrite_engState (a : Operand) (v : Word) :
    (s.memWrite a v).engState = s.engState := rfl
@[simp] theorem State.memWrite_ir (a : Operand) (v : Word) : (s.memWrite a v).ir = s.ir := rfl
@[simp] theorem State.memWrite_opc (a : Operand) (v : Word) : (s.memWrite a v).opc = s.opc := rfl
@[simp] theorem State.memWrite_opnd (a : Operand) (v : Word) : (s.memWrite a v).opnd = s.opnd := rfl
@[simp] theorem State.memWrite_hit (a : Operand) (v : Word) : (s.memWrite a v).hit = s.hit := rfl
@[simp] theorem State.memWrite_slot (a : Operand) (v : Word) : (s.memWrite a v).slot = s.slot := rfl
@[simp] theorem State.memWrite_out (a : Operand) (v : Word) : (s.memWrite a v).out = s.out := rfl
@[simp] theorem State.memWrite_fault (a : Operand) (v : Word) :
    (s.memWrite a v).fault = s.fault := rfl
@[simp] theorem State.memWrite_written (a : Operand) (v : Word) :
    (s.memWrite a v).written = s.written := rfl

/-! ### `setLine` -/

@[simp] theorem State.setLine_cfg (k : Nat) (l : Line) : (s.setLine k l).cfg = s.cfg := rfl
@[simp] theorem State.setLine_prog (k : Nat) (l : Line) : (s.setLine k l).prog = s.prog := rfl
@[simp] theorem State.setLine_ac (k : Nat) (l : Line) : (s.setLine k l).ac = s.ac := rfl
@[simp] theorem State.setLine_mq (k : Nat) (l : Line) : (s.setLine k l).mq = s.mq := rfl
@[simp] theorem State.setLine_pc (k : Nat) (l : Line) : (s.setLine k l).pc = s.pc := rfl
@[simp] theorem State.setLine_ioRegister (k : Nat) (l : Line) :
    (s.setLine k l).ioRegister = s.ioRegister := rfl
@[simp] theorem State.setLine_ioTemp (k : Nat) (l : Line) : (s.setLine k l).ioTemp = s.ioTemp := rfl
@[simp] theorem State.setLine_floatAC (k : Nat) (l : Line) :
    (s.setLine k l).floatAC = s.floatAC := rfl
@[simp] theorem State.setLine_floatMQ (k : Nat) (l : Line) :
    (s.setLine k l).floatMQ = s.floatMQ := rfl
@[simp] theorem State.setLine_cl (k : Nat) (l : Line) : (s.setLine k l).cl = s.cl.write k l := rfl
@[simp] theorem State.setLine_mem (k : Nat) (l : Line) : (s.setLine k l).mem = s.mem := rfl
@[simp] theorem State.setLine_hits (k : Nat) (l : Line) : (s.setLine k l).hits = s.hits := rfl
@[simp] theorem State.setLine_misses (k : Nat) (l : Line) : (s.setLine k l).misses = s.misses := rfl
@[simp] theorem State.setLine_engState (k : Nat) (l : Line) :
    (s.setLine k l).engState = s.engState := rfl
@[simp] theorem State.setLine_ir (k : Nat) (l : Line) : (s.setLine k l).ir = s.ir := rfl
@[simp] theorem State.setLine_opc (k : Nat) (l : Line) : (s.setLine k l).opc = s.opc := rfl
@[simp] theorem State.setLine_opnd (k : Nat) (l : Line) : (s.setLine k l).opnd = s.opnd := rfl
@[simp] theorem State.setLine_hit (k : Nat) (l : Line) : (s.setLine k l).hit = s.hit := rfl
@[simp] theorem State.setLine_slot (k : Nat) (l : Line) : (s.setLine k l).slot = s.slot := rfl
@[simp] theorem State.setLine_out (k : Nat) (l : Line) : (s.setLine k l).out = s.out := rfl
@[simp] theorem State.setLine_fault (k : Nat) (l : Line) : (s.setLine k l).fault = s.fault := rfl
@[simp] theorem State.setLine_written (k : Nat) (l : Line) :
    (s.setLine k l).written = s.written := rfl

/-! ### `raise` -/

@[simp] theorem State.raise_cfg (f : FaultCause) : (s.raise f).cfg = s.cfg := rfl
@[simp] theorem State.raise_prog (f : FaultCause) : (s.raise f).prog = s.prog := rfl
@[simp] theorem State.raise_ac (f : FaultCause) : (s.raise f).ac = s.ac := rfl
@[simp] theorem State.raise_mq (f : FaultCause) : (s.raise f).mq = s.mq := rfl
@[simp] theorem State.raise_pc (f : FaultCause) : (s.raise f).pc = s.pc := rfl
@[simp] theorem State.raise_ioRegister (f : FaultCause) :
    (s.raise f).ioRegister = s.ioRegister := rfl
@[simp] theorem State.raise_ioTemp (f : FaultCause) : (s.raise f).ioTemp = s.ioTemp := rfl
@[simp] theorem State.raise_floatAC (f : FaultCause) : (s.raise f).floatAC = s.floatAC := rfl
@[simp] theorem State.raise_floatMQ (f : FaultCause) : (s.raise f).floatMQ = s.floatMQ := rfl
@[simp] theorem State.raise_cl (f : FaultCause) : (s.raise f).cl = s.cl := rfl
@[simp] theorem State.raise_mem (f : FaultCause) : (s.raise f).mem = s.mem := rfl
@[simp] theorem State.raise_hits (f : FaultCause) : (s.raise f).hits = s.hits := rfl
@[simp] theorem State.raise_misses (f : FaultCause) : (s.raise f).misses = s.misses := rfl
@[simp] theorem State.raise_engState (f : FaultCause) : (s.raise f).engState = .faulted := rfl
@[simp] theorem State.raise_ir (f : FaultCause) : (s.raise f).ir = s.ir := rfl
@[simp] theorem State.raise_opc (f : FaultCause) : (s.raise f).opc = s.opc := rfl
@[simp] theorem State.raise_opnd (f : FaultCause) : (s.raise f).opnd = s.opnd := rfl
@[simp] theorem State.raise_hit (f : FaultCause) : (s.raise f).hit = s.hit := rfl
@[simp] theorem State.raise_slot (f : FaultCause) : (s.raise f).slot = s.slot := rfl
@[simp] theorem State.raise_out (f : FaultCause) : (s.raise f).out = s.out := rfl
@[simp] theorem State.raise_fault (f : FaultCause) : (s.raise f).fault = some f := rfl
@[simp] theorem State.raise_written (f : FaultCause) : (s.raise f).written = s.written := rfl

/-! ### `retire` -/

@[simp] theorem State.retire_cfg : s.retire.cfg = s.cfg := rfl
@[simp] theorem State.retire_prog : s.retire.prog = s.prog := rfl
@[simp] theorem State.retire_ac : s.retire.ac = s.ac := rfl
@[simp] theorem State.retire_mq : s.retire.mq = s.mq := rfl
@[simp] theorem State.retire_pc : s.retire.pc = s.pc + 1 := rfl
@[simp] theorem State.retire_ioRegister : s.retire.ioRegister = s.ioRegister := rfl
@[simp] theorem State.retire_ioTemp : s.retire.ioTemp = s.ioTemp := rfl
@[simp] theorem State.retire_floatAC : s.retire.floatAC = s.floatAC := rfl
@[simp] theorem State.retire_floatMQ : s.retire.floatMQ = s.floatMQ := rfl
@[simp] theorem State.retire_cl : s.retire.cl = s.cl := rfl
@[simp] theorem State.retire_mem : s.retire.mem = s.mem := rfl
@[simp] theorem State.retire_hits : s.retire.hits = s.hits := rfl
@[simp] theorem State.retire_misses : s.retire.misses = s.misses := rfl
@[simp] theorem State.retire_engState : s.retire.engState = .fetch := rfl
@[simp] theorem State.retire_ir : s.retire.ir = s.ir := rfl
@[simp] theorem State.retire_opc : s.retire.opc = s.opc := rfl
@[simp] theorem State.retire_opnd : s.retire.opnd = s.opnd := rfl
@[simp] theorem State.retire_hit : s.retire.hit = s.hit := rfl
@[simp] theorem State.retire_slot : s.retire.slot = s.slot := rfl
@[simp] theorem State.retire_out : s.retire.out = s.out := rfl
@[simp] theorem State.retire_fault : s.retire.fault = s.fault := rfl
@[simp] theorem State.retire_written : s.retire.written = s.written := rfl

/-! ### `halt` -/

@[simp] theorem State.halt_cfg : s.halt.cfg = s.cfg := rfl
@[simp] theorem State.halt_prog : s.halt.prog = s.prog := rfl
@[simp] theorem State.halt_ac : s.halt.ac = s.ac := rfl
@[simp] theorem State.halt_mq : s.halt.mq = s.mq := rfl
@[simp] theorem State.halt_pc : s.halt.pc = s.pc := rfl
@[simp] theorem State.halt_ioRegister : s.halt.ioRegister = s.ioRegister := rfl
@[simp] theorem State.halt_ioTemp : s.halt.ioTemp = s.ioTemp := rfl
@[simp] theorem State.halt_floatAC : s.halt.floatAC = s.floatAC := rfl
@[simp] theorem State.halt_floatMQ : s.halt.floatMQ = s.floatMQ := rfl
@[simp] theorem State.halt_cl : s.halt.cl = s.cl := rfl
@[simp] theorem State.halt_mem : s.halt.mem = s.mem := rfl
@[simp] theorem State.halt_hits : s.halt.hits = s.hits := rfl
@[simp] theorem State.halt_misses : s.halt.misses = s.misses := rfl
@[simp] theorem State.halt_engState : s.halt.engState = .halted := rfl
@[simp] theorem State.halt_ir : s.halt.ir = s.ir := rfl
@[simp] theorem State.halt_opc : s.halt.opc = s.opc := rfl
@[simp] theorem State.halt_opnd : s.halt.opnd = s.opnd := rfl
@[simp] theorem State.halt_hit : s.halt.hit = s.hit := rfl
@[simp] theorem State.halt_slot : s.halt.slot = s.slot := rfl
@[simp] theorem State.halt_out : s.halt.out = s.out := rfl
@[simp] theorem State.halt_fault : s.halt.fault = s.fault := rfl
@[simp] theorem State.halt_written : s.halt.written = s.written := rfl

/-! ### `latch` -/

@[simp] theorem State.latch_cfg (w : Word) : (s.latch w).cfg = s.cfg := rfl
@[simp] theorem State.latch_prog (w : Word) : (s.latch w).prog = s.prog := rfl
@[simp] theorem State.latch_ac (w : Word) : (s.latch w).ac = s.ac := rfl
@[simp] theorem State.latch_mq (w : Word) : (s.latch w).mq = s.mq := rfl
@[simp] theorem State.latch_pc (w : Word) : (s.latch w).pc = s.pc := rfl
@[simp] theorem State.latch_ioRegister (w : Word) : (s.latch w).ioRegister = s.ioRegister := rfl
@[simp] theorem State.latch_ioTemp (w : Word) : (s.latch w).ioTemp = s.ioTemp := rfl
@[simp] theorem State.latch_floatAC (w : Word) : (s.latch w).floatAC = s.floatAC := rfl
@[simp] theorem State.latch_floatMQ (w : Word) : (s.latch w).floatMQ = s.floatMQ := rfl
@[simp] theorem State.latch_cl (w : Word) : (s.latch w).cl = s.cl := rfl
@[simp] theorem State.latch_mem (w : Word) : (s.latch w).mem = s.mem := rfl
@[simp] theorem State.latch_hits (w : Word) : (s.latch w).hits = s.hits := rfl
@[simp] theorem State.latch_misses (w : Word) : (s.latch w).misses = s.misses := rfl
@[simp] theorem State.latch_engState (w : Word) : (s.latch w).engState = s.engState := rfl
@[simp] theorem State.latch_ir (w : Word) : (s.latch w).ir = w := rfl
@[simp] theorem State.latch_opc (w : Word) : (s.latch w).opc = opcField w := rfl
@[simp] theorem State.latch_opnd (w : Word) : (s.latch w).opnd = opndField w := rfl
@[simp] theorem State.latch_hit (w : Word) : (s.latch w).hit = s.hit := rfl
@[simp] theorem State.latch_slot (w : Word) : (s.latch w).slot = s.slot := rfl
@[simp] theorem State.latch_out (w : Word) : (s.latch w).out = s.out := rfl
@[simp] theorem State.latch_fault (w : Word) : (s.latch w).fault = s.fault := rfl
@[simp] theorem State.latch_written (w : Word) : (s.latch w).written = s.written := rfl

/-! ### `resolve` -/

@[simp] theorem State.resolve_cfg (a : Operand) : (s.resolve a).cfg = s.cfg := rfl
@[simp] theorem State.resolve_prog (a : Operand) : (s.resolve a).prog = s.prog := rfl
@[simp] theorem State.resolve_ac (a : Operand) : (s.resolve a).ac = s.ac := rfl
@[simp] theorem State.resolve_mq (a : Operand) : (s.resolve a).mq = s.mq := rfl
@[simp] theorem State.resolve_pc (a : Operand) : (s.resolve a).pc = s.pc := rfl
@[simp] theorem State.resolve_ioRegister (a : Operand) :
    (s.resolve a).ioRegister = s.ioRegister := rfl
@[simp] theorem State.resolve_ioTemp (a : Operand) : (s.resolve a).ioTemp = s.ioTemp := rfl
@[simp] theorem State.resolve_floatAC (a : Operand) : (s.resolve a).floatAC = s.floatAC := rfl
@[simp] theorem State.resolve_floatMQ (a : Operand) : (s.resolve a).floatMQ = s.floatMQ := rfl
@[simp] theorem State.resolve_cl (a : Operand) :
    (s.resolve a).cl = if s.hitsAt a then s.cl else s.cl.write (slotOf s.cfg a) (s.fillLine a) := rfl
@[simp] theorem State.resolve_mem (a : Operand) : (s.resolve a).mem = s.mem := rfl
@[simp] theorem State.resolve_hits (a : Operand) :
    (s.resolve a).hits = if s.hitsAt a then countUp s.cfg s.hits else s.hits := rfl
@[simp] theorem State.resolve_misses (a : Operand) :
    (s.resolve a).misses = if s.hitsAt a then s.misses else countUp s.cfg s.misses := rfl
@[simp] theorem State.resolve_engState (a : Operand) : (s.resolve a).engState = s.engState := rfl
@[simp] theorem State.resolve_ir (a : Operand) : (s.resolve a).ir = s.ir := rfl
@[simp] theorem State.resolve_opc (a : Operand) : (s.resolve a).opc = s.opc := rfl
@[simp] theorem State.resolve_opnd (a : Operand) : (s.resolve a).opnd = s.opnd := rfl
@[simp] theorem State.resolve_hit (a : Operand) : (s.resolve a).hit = s.hitsAt a := rfl
@[simp] theorem State.resolve_slot (a : Operand) : (s.resolve a).slot = slotOf s.cfg a := rfl
@[simp] theorem State.resolve_out (a : Operand) : (s.resolve a).out = s.out := rfl
@[simp] theorem State.resolve_fault (a : Operand) : (s.resolve a).fault = s.fault := rfl
@[simp] theorem State.resolve_written (a : Operand) : (s.resolve a).written = s.written := rfl

/-! ### `storeThrough`: all but the two sinks -/

@[simp] theorem State.storeThrough_cfg (a : Operand) (v : Word) (h : Bool) :
    (s.storeThrough a v h).cfg = s.cfg := by cases h <;> rfl
@[simp] theorem State.storeThrough_prog (a : Operand) (v : Word) (h : Bool) :
    (s.storeThrough a v h).prog = s.prog := by cases h <;> rfl
@[simp] theorem State.storeThrough_ac (a : Operand) (v : Word) (h : Bool) :
    (s.storeThrough a v h).ac = s.ac := by cases h <;> rfl
@[simp] theorem State.storeThrough_mq (a : Operand) (v : Word) (h : Bool) :
    (s.storeThrough a v h).mq = s.mq := by cases h <;> rfl
@[simp] theorem State.storeThrough_pc (a : Operand) (v : Word) (h : Bool) :
    (s.storeThrough a v h).pc = s.pc := by cases h <;> rfl
@[simp] theorem State.storeThrough_ioRegister (a : Operand) (v : Word) (h : Bool) :
    (s.storeThrough a v h).ioRegister = s.ioRegister := by cases h <;> rfl
@[simp] theorem State.storeThrough_ioTemp (a : Operand) (v : Word) (h : Bool) :
    (s.storeThrough a v h).ioTemp = s.ioTemp := by cases h <;> rfl
@[simp] theorem State.storeThrough_floatAC (a : Operand) (v : Word) (h : Bool) :
    (s.storeThrough a v h).floatAC = s.floatAC := by cases h <;> rfl
@[simp] theorem State.storeThrough_floatMQ (a : Operand) (v : Word) (h : Bool) :
    (s.storeThrough a v h).floatMQ = s.floatMQ := by cases h <;> rfl
@[simp] theorem State.storeThrough_hits (a : Operand) (v : Word) (h : Bool) :
    (s.storeThrough a v h).hits = s.hits := by cases h <;> rfl
@[simp] theorem State.storeThrough_misses (a : Operand) (v : Word) (h : Bool) :
    (s.storeThrough a v h).misses = s.misses := by cases h <;> rfl
@[simp] theorem State.storeThrough_engState (a : Operand) (v : Word) (h : Bool) :
    (s.storeThrough a v h).engState = s.engState := by cases h <;> rfl
@[simp] theorem State.storeThrough_ir (a : Operand) (v : Word) (h : Bool) :
    (s.storeThrough a v h).ir = s.ir := by cases h <;> rfl
@[simp] theorem State.storeThrough_opc (a : Operand) (v : Word) (h : Bool) :
    (s.storeThrough a v h).opc = s.opc := by cases h <;> rfl
@[simp] theorem State.storeThrough_opnd (a : Operand) (v : Word) (h : Bool) :
    (s.storeThrough a v h).opnd = s.opnd := by cases h <;> rfl
@[simp] theorem State.storeThrough_hit (a : Operand) (v : Word) (h : Bool) :
    (s.storeThrough a v h).hit = s.hit := by cases h <;> rfl
@[simp] theorem State.storeThrough_slot (a : Operand) (v : Word) (h : Bool) :
    (s.storeThrough a v h).slot = s.slot := by cases h <;> rfl
@[simp] theorem State.storeThrough_out (a : Operand) (v : Word) (h : Bool) :
    (s.storeThrough a v h).out = s.out := by cases h <;> rfl
@[simp] theorem State.storeThrough_fault (a : Operand) (v : Word) (h : Bool) :
    (s.storeThrough a v h).fault = s.fault := by cases h <;> rfl
@[simp] theorem State.storeThrough_written (a : Operand) (v : Word) (h : Bool) :
    (s.storeThrough a v h).written = s.written := by cases h <;> rfl

/-! ### `withFetchWord` -/

@[simp] theorem State.withFetchWord_cfg (n w : Nat) :
    (s.withFetchWord n w).cfg = s.cfg := rfl
@[simp] theorem State.withFetchWord_prog (n w : Nat) :
    (s.withFetchWord n w).prog = putWord s.prog s.pc.toNat (BitVec.ofNat 32 (w % 2 ^ n)) := rfl
@[simp] theorem State.withFetchWord_ac (n w : Nat) :
    (s.withFetchWord n w).ac = s.ac := rfl
@[simp] theorem State.withFetchWord_mq (n w : Nat) :
    (s.withFetchWord n w).mq = s.mq := rfl
@[simp] theorem State.withFetchWord_pc (n w : Nat) :
    (s.withFetchWord n w).pc = s.pc := rfl
@[simp] theorem State.withFetchWord_ioRegister (n w : Nat) :
    (s.withFetchWord n w).ioRegister = s.ioRegister := rfl
@[simp] theorem State.withFetchWord_ioTemp (n w : Nat) :
    (s.withFetchWord n w).ioTemp = s.ioTemp := rfl
@[simp] theorem State.withFetchWord_floatAC (n w : Nat) :
    (s.withFetchWord n w).floatAC = s.floatAC := rfl
@[simp] theorem State.withFetchWord_floatMQ (n w : Nat) :
    (s.withFetchWord n w).floatMQ = s.floatMQ := rfl
@[simp] theorem State.withFetchWord_cl (n w : Nat) :
    (s.withFetchWord n w).cl = s.cl := rfl
@[simp] theorem State.withFetchWord_mem (n w : Nat) :
    (s.withFetchWord n w).mem = s.mem := rfl
@[simp] theorem State.withFetchWord_hits (n w : Nat) :
    (s.withFetchWord n w).hits = s.hits := rfl
@[simp] theorem State.withFetchWord_misses (n w : Nat) :
    (s.withFetchWord n w).misses = s.misses := rfl
@[simp] theorem State.withFetchWord_engState (n w : Nat) :
    (s.withFetchWord n w).engState = .fetch := rfl
@[simp] theorem State.withFetchWord_ir (n w : Nat) :
    (s.withFetchWord n w).ir = s.ir := rfl
@[simp] theorem State.withFetchWord_opc (n w : Nat) :
    (s.withFetchWord n w).opc = s.opc := rfl
@[simp] theorem State.withFetchWord_opnd (n w : Nat) :
    (s.withFetchWord n w).opnd = s.opnd := rfl
@[simp] theorem State.withFetchWord_hit (n w : Nat) :
    (s.withFetchWord n w).hit = s.hit := rfl
@[simp] theorem State.withFetchWord_slot (n w : Nat) :
    (s.withFetchWord n w).slot = s.slot := rfl
@[simp] theorem State.withFetchWord_out (n w : Nat) :
    (s.withFetchWord n w).out = s.out := rfl
@[simp] theorem State.withFetchWord_fault (n w : Nat) :
    (s.withFetchWord n w).fault = s.fault := rfl
@[simp] theorem State.withFetchWord_written (n w : Nat) :
    (s.withFetchWord n w).written = s.written := rfl

end Sys2Proof.Machine
end

