-- ==== Sys2Proof/Laws/Ops.lean ====
section
/-!
SUPPORT. What each shared operation can do, said once: the marks, the resolve, the write contract, the
whole instruction around a body, and what a body leaves alone.
-/

namespace Sys2Proof.Machine

/-! ### Written marks -/

theorem Written.get_set (w : Written) (r q : Reg) :
    (w.set r).get q = if q = r then true else w.get q := by
  cases r <;> cases q <;> rfl

/-- A write sets its own register's mark, under REG_INIT = Unwritten only. -/
theorem markWritten_get (p : RegInit) (w : Written) (r q : Reg) :
    (markWritten p w r).get q = if p = .unwritten ∧ q = r then true else w.get q := by
  cases p
  · simp [markWritten]
  · simp [markWritten, Written.get_set]

/-- When a group of register reads is allowed. -/
theorem State.readable_iff (s : State) (rs : List Reg) :
    s.readable rs = true ↔ s.cfg.regInit = .zero ∨ ∀ r ∈ rs, s.written.get r = true := by
  unfold State.readable
  split <;> rename_i h <;> simp [h]

/-! ### The cache -/

theorem Line.holds_iff (l : Line) (a : Operand) : l.holds a = true ↔ l.valid = true ∧ l.tag = a := by
  simp [Line.holds]

theorem inRange_iff (cfg : Config) (a : Operand) : inRange cfg a = true ↔ a.toNat < cfg.memWords := by
  simp [inRange]

/-- Every line after a resolve: on a miss the slot of the address is filled; nothing else changes. -/
theorem State.line_resolve (s : State) (a : Operand) (k : Nat) :
    (s.resolve a).line k =
      if s.hitsAt a = false ∧ k = slotOf s.cfg a then s.fillLine a else s.line k := by
  unfold State.line
  rw [State.resolve_cl]
  cases h : s.hitsAt a
  · have hv : (s.fillLine a).valid = true := rfl
    simp [CacheArray.read_write_valid _ _ _ _ hv]
  · simp

/-- A resolve leaves its address resident, whichever way it went. -/
theorem State.hitsAt_resolve (s : State) (a : Operand) : (s.resolve a).hitsAt a = true := by
  unfold State.hitsAt
  rw [State.resolve_cfg, State.line_resolve]
  cases h : s.hitsAt a
  · simp [State.fillLine, Line.holds]
  · simpa [State.hitsAt] using h

/-- The value an instruction reads after its resolve is the view before it. -/
theorem State.resolvedValue_resolve (s : State) (a : Operand) :
    (s.resolve a).resolvedValue = s.view a := by
  unfold State.resolvedValue State.view
  rw [State.resolve_slot, State.line_resolve]
  cases h : s.hitsAt a <;> simp [State.fillLine]

/-- Every line after a store: the slot of the address takes the value as its DATA. The line is valid
wherever a resolve came first, and then no canonical form is needed. -/
theorem State.line_storeThrough (s : State) (a : Operand) (v : Word) (h : Bool) (k : Nat)
    (hv : (s.line (slotOf s.cfg a)).valid = true) :
    (s.storeThrough a v h).line k =
      if k = slotOf s.cfg a then { s.line (slotOf s.cfg a) with data := v } else s.line k := by
  have hcl : (s.storeThrough a v h).cl =
      s.cl.write (slotOf s.cfg a) { s.line (slotOf s.cfg a) with data := v } := by cases h <;> rfl
  unfold State.line
  rw [hcl, CacheArray.read_write_valid _ _ _ _ (by exact hv)]
  rfl

/-- Every cell after a store: only a miss writes, and only its own address. -/
theorem State.mem_storeThrough (s : State) (a : Operand) (v : Word) (h : Bool) (b : Nat)
    (hw : s.mem.wf = true) :
    (s.storeThrough a v h).mem.read b =
      if h = false ∧ b = a.toNat then v else s.mem.read b := by
  cases h
  · simpa [State.storeThrough] using Memory.read_write s.mem a.toNat b v hw
  · simp [State.storeThrough]

/-! ### Whole instructions -/

/-- `exec` of every instruction is its body run as a whole instruction. -/
theorem exec_eq (i : Instr) (s : State) :
    exec i s = .next (s.runInstr i.operand (bodyOf i.mnemonic)) := by
  cases i <;> rfl

/-- A whole instruction out of range: the fault of RESOLVE. -/
theorem State.runInstr_out (s : State) (a : Operand) (b : Body) (h : s.cfg.memWords ≤ a.toNat) :
    s.runInstr a b = s.raise .addressOutOfRange := by
  have hr : inRange s.cfg a = false := by simp [inRange]; omega
  simp [State.runInstr, State.resolveOperand, hr]

/-- A whole instruction in range: the body runs on the resolved state with the view of the operand, and
retires or raises. -/
theorem State.runInstr_in (s : State) (a : Operand) (b : Body) (h : a.toNat < s.cfg.memWords) :
    s.runInstr a b =
      match b a (s.view a) (s.resolve a) with
      | .ok t => t.retire
      | .error f => (s.resolve a).raise f := by
  have hr : inRange s.cfg a = true := (inRange_iff _ _).2 h
  cases ho : b a (s.view a) (s.resolve a) <;>
    simp [State.runInstr, State.resolveOperand, hr, State.runBody, State.resolvedValue_resolve, ho]

/-- Everything a whole instruction can do. -/
theorem State.runInstr_cases (s : State) (a : Operand) (b : Body) :
    (s.cfg.memWords ≤ a.toNat ∧ s.runInstr a b = s.raise .addressOutOfRange) ∨
    (a.toNat < s.cfg.memWords ∧ ∃ t, b a (s.view a) (s.resolve a) = .ok t ∧
      s.runInstr a b = t.retire) ∨
    (a.toNat < s.cfg.memWords ∧ ∃ f, b a (s.view a) (s.resolve a) = .error f ∧
      s.runInstr a b = (s.resolve a).raise f) := by
  by_cases h : a.toNat < s.cfg.memWords
  · have hi := s.runInstr_in a b h
    cases hb : b a (s.view a) (s.resolve a) with
    | ok t => exact .inr (.inl ⟨h, t, rfl, by rw [hi, hb]⟩)
    | error f => exact .inr (.inr ⟨h, f, rfl, by rw [hi, hb]⟩)
  · exact .inl ⟨by omega, s.runInstr_out a b (by omega)⟩

/-- A reading body that goes through had its registers readable. -/
theorem reading_ok {rs : List Reg} {b : Body} {a : Operand} {v : Word} {s t : State}
    (h : reading rs b a v s = .ok t) : s.readable rs = true ∧ b a v s = .ok t := by
  unfold reading at h
  split at h
  · exact ⟨‹_›, h⟩
  · cases h

/-- Why a reading body raises. -/
theorem reading_error {rs : List Reg} {b : Body} {a : Operand} {v : Word} {s : State}
    {f : FaultCause} (h : reading rs b a v s = .error f) :
    (s.readable rs = false ∧ f = .unwrittenRead) ∨ (s.readable rs = true ∧ b a v s = .error f) := by
  unfold reading at h
  split at h
  · exact .inr ⟨‹_›, h⟩
  · injection h with h
    exact .inl ⟨by simpa using ‹¬s.readable rs = true›, h.symm⟩

/-- What every body leaves as it was, and the marks it sets. -/
structure BodyKeeps (m : Mnemonic) (s t : State) : Prop where
  cfg : t.cfg = s.cfg
  prog : t.prog = s.prog
  pc : t.pc = s.pc
  hits : t.hits = s.hits
  misses : t.misses = s.misses
  engState : t.engState = s.engState
  ir : t.ir = s.ir
  opc : t.opc = s.opc
  opnd : t.opnd = s.opnd
  hit : t.hit = s.hit
  slot : t.slot = s.slot
  fault : t.fault = s.fault
  regs : ∀ r, r ∉ regsWritten m → t.regContent r = s.regContent r
  written : ∀ r, t.written.get r =
    if s.cfg.regInit = .unwritten ∧ r ∈ regsWritten m then true else s.written.get r
  sinks : m ≠ .store → t.cl = s.cl ∧ t.mem = s.mem

/-- Every body of the map keeps all that. -/
theorem body_keeps {m : Mnemonic} {a : Operand} {v : Word} {s t : State}
    (h : bodyOf m a v s = .ok t) : BodyKeeps m s t := by
  cases m <;> simp only [bodyOf, bodyLoad, bodyLoadMq, bodyMqToAc, bodyStore, bodyAdd, bodySubtract,
    bodyMultiply, bodyDivide, bodyAddFloat, bodySubtractFloat, bodyMultiplyFloat, bodyDivideFloat,
    bodyPrint, bodyLoadIo, bodyStoreIo, reading] at h <;>
    (repeat' split at h) <;> cases h <;>
    (constructor <;> first
      | rfl
      | (intro r; cases r <;> simp [regsWritten, State.regContent]; done)
      | (intro r; cases r <;> simp [regsWritten, markWritten_get])
      | simp)

/-- The causes a body can raise. -/
theorem body_error {m : Mnemonic} {a : Operand} {v : Word} {s : State} {f : FaultCause}
    (h : bodyOf m a v s = .error f) :
    (s.readable (regsRead m) = false ∧ f = .unwrittenRead) ∨
    (s.readable (regsRead m) = true ∧ divides m = true ∧ v = 0 ∧ f = .divideByZero) := by
  cases m <;> simp only [bodyOf, bodyLoad, bodyLoadMq, bodyMqToAc, bodyStore, bodyAdd, bodySubtract,
    bodyMultiply, bodyDivide, bodyAddFloat, bodySubtractFloat, bodyMultiplyFloat, bodyDivideFloat,
    bodyPrint, bodyLoadIo, bodyStoreIo, reading] at h <;>
    (repeat' split at h) <;> cases h <;>
    simp_all [regsRead, divides, ← BitVec.toInt_inj]

/-- The causes any opcode's body can raise: an unassigned one by the policy, one of the map its own. -/
theorem bodyOfOpcode_error {o : Opcode} {a : Operand} {v : Word} {s : State} {f : FaultCause}
    (h : bodyOfOpcode o a v s = .error f) :
    (mnemonicOf? o = none ∧ s.cfg.unassignedPolicy = .fault ∧ f = .illegalOpcode) ∨
    ∃ m, mnemonicOf? o = some m ∧
      ((s.readable (regsRead m) = false ∧ f = .unwrittenRead) ∨
        (s.readable (regsRead m) = true ∧ divides m = true ∧ v = 0 ∧ f = .divideByZero)) := by
  unfold bodyOfOpcode at h
  cases hm : mnemonicOf? o with
  | none =>
    simp only [hm, bodyUnassigned] at h
    split at h <;> cases h
    exact .inl ⟨rfl, ‹_›, rfl⟩
  | some m =>
    simp only [hm] at h
    exact .inr ⟨m, rfl, body_error h⟩

/-! ### The step -/

/-- What a step from FETCH is, where a word is left. -/
theorem step_fetch {s : State} {w : Word} (he : s.engState = .fetch) (hw : s.fetchWord? = some w) :
    step s = runWord w (s.latch w) := by
  simp [step, he, hw]

/-- What a step from FETCH is, where the program is exhausted. -/
theorem step_halt {s : State} (he : s.engState = .fetch) (hw : s.fetchWord? = none) :
    step s = .next s.halt := by
  simp [step, he, hw]

/-- A fetched word runs the body of its opcode as a whole instruction. -/
theorem runWord_eq (w : Word) (s : State) :
    runWord w s = .next (s.runInstr (opndField w) (bodyOfOpcode (opcField w))) := by
  unfold runWord decode bodyOfOpcode
  cases h : mnemonicOf? (opcField w) with
  | none => rfl
  | some m => cases m <;> rfl

/-- What a list of words that completes does first. -/
theorem runWords_cons {w : Word} {ws : List Word} {s u : State} (h : runWords (w :: ws) s = some u) :
    ∃ t, runWord w s = .next t ∧ t.engState = .fetch ∧ runWords ws t = some u := by
  unfold runWords at h
  split at h
  · split at h
    · exact ⟨_, ‹_›, ‹_›, h⟩
    · cases h
  all_goals cases h

/-- What each transition of the engine is. -/
theorem tick_cases {s t : State} (h : tick s = some t) :
    (s.engState = .fetch ∧ t = s.tickFetch) ∨ (s.engState = .decode ∧ t = s.tickDecode) ∨
    (s.engState = .resolve ∧ t = s.tickResolve) ∨ (s.engState = .execute ∧ t = s.tickExecute) ∨
    (s.engState = .ioXfer ∧ t = s.tickIoXfer) := by
  cases he : s.engState <;> simp [tick, he] at h <;> simp [h]

end Sys2Proof.Machine
end

