-- ==== Sys2Proof/Laws/PerInstr.lean ====
section
/-!
SUPPORT. What the encoding of each instruction holds in its two fields (spec/30_encoding.md R90, R94),
one lemma an instruction.
-/

namespace Sys2Proof.Laws

/-- The two fields of a word put together from them. -/
theorem fields_of_parts (o : Opcode) (a : Operand) :
    opcField (o.zeroExtend 32 <<< 24 ||| a.zeroExtend 32) = o ∧
      opndField (o.zeroExtend 32 <<< 24 ||| a.zeroExtend 32) = a := by
  constructor
  · apply BitVec.eq_of_getLsbD_eq
    intro i hi
    have h1 : 24 + i < 32 := by omega
    have h2 : ¬24 + i < 24 := by omega
    simp [opcField, hi, h1, h2, BitVec.getLsbD_of_ge]
  · apply BitVec.eq_of_getLsbD_eq
    intro i hi
    have h1 : i < 32 := by omega
    simp [opndField, hi, h1]

/-- R90, R94: the encoding of an instruction holds its row's opcode and its operand. -/
def EncodedFields.Statement (i : Instr) : Prop :=
  opcField (encode i) = opcodeOf i.mnemonic ∧ opndField (encode i) = i.operand

theorem EncodedFields.load (a : Operand) : EncodedFields.Statement (.load a) := fields_of_parts _ a
theorem EncodedFields.loadIo (a : Operand) : EncodedFields.Statement (.loadIo a) := fields_of_parts _ a
theorem EncodedFields.storeIo (a : Operand) : EncodedFields.Statement (.storeIo a) := fields_of_parts _ a
theorem EncodedFields.print (a : Operand) : EncodedFields.Statement (.print a) := fields_of_parts _ a
theorem EncodedFields.add (a : Operand) : EncodedFields.Statement (.add a) := fields_of_parts _ a
theorem EncodedFields.subtract (a : Operand) : EncodedFields.Statement (.subtract a) :=
  fields_of_parts _ a
theorem EncodedFields.addFloat (a : Operand) : EncodedFields.Statement (.addFloat a) :=
  fields_of_parts _ a
theorem EncodedFields.subtractFloat (a : Operand) : EncodedFields.Statement (.subtractFloat a) :=
  fields_of_parts _ a
theorem EncodedFields.loadMq (a : Operand) : EncodedFields.Statement (.loadMq a) := fields_of_parts _ a
theorem EncodedFields.mqToAc (a : Operand) : EncodedFields.Statement (.mqToAc a) := fields_of_parts _ a
theorem EncodedFields.multiply (a : Operand) : EncodedFields.Statement (.multiply a) :=
  fields_of_parts _ a
theorem EncodedFields.divide (a : Operand) : EncodedFields.Statement (.divide a) := fields_of_parts _ a
theorem EncodedFields.multiplyFloat (a : Operand) : EncodedFields.Statement (.multiplyFloat a) :=
  fields_of_parts _ a
theorem EncodedFields.divideFloat (a : Operand) : EncodedFields.Statement (.divideFloat a) :=
  fields_of_parts _ a
theorem EncodedFields.store (a : Operand) : EncodedFields.Statement (.store a) := fields_of_parts _ a

end Sys2Proof.Laws
end

