-- ==== Sys2Proof/Machine/Flags.lean ====
section
/-!
DEFINITION. The block has no status flags, condition codes or predicates (spec/10_state.md R37), so
this file computes none. Integer results are in Machine/Arith.lean.
-/
end

