-- ==== Sys2Proof/Tests/Slice0.lean ====
section
/-!
SUPPORT. The model's own tests. The expected results are those of spec/95_test_vectors.md and of the
examples in the instruction rules, named in each comment; then a witness for every statement that has
hypotheses.
-/

namespace Sys2Proof.Tests

open Sys2Proof Sys2Proof.Machine

/-! ### Well-formedness: an ill-formed term for each check -/

theorem test_reference_config_ok : Config.reference.wellFormed = true := by decide
theorem test_no_memory_refused : (Config.wellFormed { Config.reference with memWords := 0 }) = false := by
  decide
theorem test_large_memory_refused :
    (Config.wellFormed { Config.reference with memWords := 2 ^ 24 + 1 }) = false := by decide
theorem test_no_lines_refused : (Config.wellFormed { Config.reference with cacheLines := 0 }) = false := by
  decide
theorem test_long_program_refused (n : Nat) (h : n = 2 ^ 31) :
    progWellFormed (List.replicate n 0) = false := by
  rw [progWellFormed, List.length_replicate, h]
  decide
theorem test_low_feed_value_refused : feedWellFormed (-(2 ^ 31) - 1) = false := by decide
theorem test_high_feed_value_refused : feedWellFormed (2 ^ 31) = false := by decide
theorem test_long_operand_refused : (AsmLine.wellFormed ⟨.load, 2 ^ 24⟩) = false := by decide

/-! ### Decoding: words written out from R94; 95 section 2 -/

theorem test_decode_transfer :
    decode 0b00000001000000000000000000000101 = .ok (.load 5) ∧
    decode 0b00001001000000000000000000000111 = .ok (.loadMq 7) ∧
    decode 0b00001010000000000000000000000000 = .ok (.mqToAc 0) ∧
    decode 0b00100001000000000000000000000110 = .ok (.store 6) := by decide
theorem test_decode_integer :
    decode 0b00000101000000000000000000000001 = .ok (.add 1) ∧
    decode 0b00000110000000000000000000000010 = .ok (.subtract 2) ∧
    decode 0b00001011000000000000000000000011 = .ok (.multiply 3) ∧
    decode 0b00001100000000000000000000000100 = .ok (.divide 4) := by decide
theorem test_decode_float :
    decode 0b00000111000000000000000000001001 = .ok (.addFloat 9) ∧
    decode 0b00001000111111111111111111111111 = .ok (.subtractFloat 0xFFFFFF) ∧
    decode 0b00001101100000000000000000000000 = .ok (.multiplyFloat 0x800000) ∧
    decode 0b00001110000001111111111111111111 = .ok (.divideFloat 524287) := by decide
theorem test_decode_output :
    decode 0b00000100000000000000000000001000 = .ok (.print 8) ∧
    decode 0b00000010000000000000000000000000 = .ok (.loadIo 0) ∧
    decode 0b00000011000000000000000000000000 = .ok (.storeIo 0) := by decide
theorem test_decode_unassigned :
    decode 0x00000003 = .error (.unassignedOpcode 0) ∧ decode 0x0F000000 = .error (.unassignedOpcode 15) ∧
    decode 0x20000001 = .error (.unassignedOpcode 32) ∧ decode 0x22000000 = .error (.unassignedOpcode 34) ∧
    decode 0xFF000001 = .error (.unassignedOpcode 255) ∧
    decode 0x80000000 = .error (.unassignedOpcode 128) := by decide
theorem test_table_word : decodeTableWord 32 0x0A000000 = some (.mqToAc 0) := by decide
/-- R101 and 95 section 2: feed forms, bit 31 set included. -/
theorem test_feed_words :
    feedWord 16777221 = some 0x01000005 ∧ feedWord (-16777215) = some 0xFF000001 := by decide

/-! ### One instruction at a time -/

/-- The configuration of 95_test_vectors.md. -/
def cfg4 : Config := { Config.reference with cacheLines := 4 }

/-- The float configuration of 95 section 6: `CODEC_EXP` is 127 everywhere, `FLOAT` is binary32. -/
def cfgF : Config := { cfg4 with codecExp := .window 127 0 0, float := .binary32 }

/-- A small state: a configuration, a memory image, AC and MQ. -/
def small (cfg : Config) (m : Memory) (ac mq : Word) : State :=
  { State.launch cfg m [] with ac := ac, mq := mq }

/-- One quantity of the state an instruction ends in. -/
def obs {α : Type} (i : Instr) (s : State) (f : State → α) : Option α :=
  match exec i s with
  | .next t => some (f t)
  | .fault _ => none
  | .refused _ => none

/-- R130's example. -/
theorem test_load : obs (.load 5) (small cfg4 [(5, 42)] 0 0)
    (fun t => (t.ac, t.mq, t.line 1, t.hits, t.misses)) = some (42, 42, ⟨true, 5, 42⟩, 0, 1) := by decide
/-- E3: a hit, on a divergent line too (T5). -/
theorem test_load_hit : obs (.load 9) { small cfg4 [(9, 5)] 0 0 with cl := [(1, ⟨true, 9, 10⟩)] }
    (fun t => (t.ac, t.hits, t.misses, t.hit, t.slot)) = some (10, 1, 0, true, 1) := by decide
/-- R131's example. -/
theorem test_load_mq : obs (.loadMq 7) (small cfg4 [(7, -3)] 10 0)
    (fun t => (t.mq, t.ac)) = some (-3, 10) := by decide
/-- R132's example, T2: the unused operand still evicts tag 4 from slot 0. -/
theorem test_mq_to_ac : obs (.mqToAc 0) { small cfg4 [] (-589) 411 with cl := [(0, ⟨true, 4, 7⟩)] }
    (fun t => (t.ac, t.line 0, t.misses)) = some (411, ⟨true, 0, 0⟩, 1) := by decide
/-- E2, T3: a store that misses writes both sinks, a zero included. -/
theorem test_store_miss : obs (.store 9) (small cfg4 [(9, 5)] 0 0)
    (fun t => (t.line 1, t.mem)) = some (⟨true, 9, 0⟩, []) := by decide
/-- T4: a store that hits writes the line alone. -/
theorem test_store_hit : obs (.store 9) { small cfg4 [(9, 5)] 10 5 with cl := [(1, ⟨true, 9, 5⟩)] }
    (fun t => (t.line 1, t.mem, t.divergent 1)) = some (⟨true, 9, 10⟩, [(9, 5)], true) := by decide
/-- 95 section 5: a wrap. -/
theorem test_add : obs (.add 1) (small cfg4 [(1, 1)] 2147483647 9)
    (fun t => (t.ac, t.mq)) = some (-2147483648, 9) := by decide
/-- R141's example. -/
theorem test_subtract : obs (.subtract 2) (small cfg4 [(2, 1000)] 411 0)
    (fun t => t.ac) = some (-589) := by decide
/-- R142's example. -/
theorem test_multiply : obs (.multiply 3) (small cfg4 [(3, 5000)] 7 1000)
    (fun t => (t.mq, t.ac)) = some (5000000, 2880) := by decide
/-- 95 section 5: a negative product, and its mask. -/
theorem test_multiply_negative : obs (.multiply 3) (small cfg4 [(3, 5)] 0 (-3))
    (fun t => (t.mq, t.ac)) = some (-15, 4081) := by decide
/-- 95 section 5: rounding toward zero. -/
theorem test_divide : obs (.divide 4) (small cfg4 [(4, 2)] (-7) 1)
    (fun t => (t.mq, t.ac)) = some (-3, 4093) := by decide
/-- P4: a zero divisor keeps the fill and writes no register. -/
theorem test_divide_by_zero : obs (.divide 7) (small cfg4 [] 42 42)
    (fun t => (faultCode t.fault, t.ac, t.mq, t.line 3, t.pc)) =
      some (1, 42, 42, ⟨true, 7, 0⟩, 0) := by decide
/-- 95 section 6: 3/2 + 1 is 5/2. -/
theorem test_add_float : obs (.addFloat 9) (small cfgF [] 1 0)
    (fun t => (t.floatAC, t.out, t.ac)) = some (⟨0x40200000⟩, [.float ⟨0x40200000⟩], 1) := by
  decide +kernel
/-- 95 section 6: 1 - 3/2 is -1/2. -/
theorem test_subtract_float : obs (.subtractFloat 9) (small cfgF [(9, 1)] 0 0)
    (fun t => t.floatAC) = some ⟨0xBF000000⟩ := by decide +kernel
/-- 95 section 6: 7/4 times 5/4 is 35/16, of MQ and not of AC. -/
theorem test_multiply_float : obs (.multiplyFloat 9) (small cfgF [(9, 2)] 5 3)
    (fun t => (t.floatMQ, t.floatAC)) = some (⟨0x400C0000⟩, ⟨0x400C0000⟩) := by decide +kernel
/-- 95 section 6: 3/2 by 5/4 rounds to 0x3F99999A. -/
theorem test_divide_float : obs (.divideFloat 9) (small cfgF [(9, 2)] 1 7)
    (fun t => (t.floatMQ, t.floatAC)) = some (⟨0x3F99999A⟩, ⟨0x3F99999A⟩) := by decide +kernel
/-- X7: the raw Word 0 faults and emits nothing. -/
theorem test_divide_float_by_zero : obs (.divideFloat 7) (small cfg4 [] 1 1)
    (fun t => (faultCode t.fault, t.out, t.floatAC.code)) = some (1, [], 0) := by decide
/-- O7: PRINT shows the cached value. -/
theorem test_print : obs (.print 1) { small cfg4 [(1, 10)] 20 10 with cl := [(1, ⟨true, 1, 20⟩)] }
    (fun t => t.out) = some [.int 20] := by decide
/-- O2. -/
theorem test_load_io : obs (.loadIo 0) { small cfg4 [] 25 0 with ioRegister := 10 }
    (fun t => (t.ac, t.ioRegister, t.ioTemp, t.out)) = some (10, 10, 25, [.io 10]) := by decide
/-- O3. -/
theorem test_store_io : obs (.storeIo 0) { small cfg4 [] 10 0 with ioRegister := 10, ioTemp := 25 }
    (fun t => (t.ac, t.ioRegister, t.ioTemp, t.out)) = some (25, 10, 25, [.io 10]) := by decide

/-! ### The codec, the caches of other sizes, the policies, the engine -/

/-- 95 section 6: the codec vectors; bit 0 weighs 1/2, bit 23 and the sign bit nothing. -/
theorem test_codec :
    (decodeFloat cfgF 0, decodeFloat cfgF 1, decodeFloat cfgF 2, decodeFloat cfgF 0x00400000,
      decodeFloat cfgF 0x00800000, decodeFloat cfgF 0xFFFFFFFF) =
    (⟨0x3F800000⟩, ⟨0x3FC00000⟩, ⟨0x3FA00000⟩, ⟨0x3F800001⟩, ⟨0x3F800000⟩, ⟨0x3FFFFFFF⟩) := by
  decide +kernel
/-- 95 section 6, the second instantiation: `CODEC_EXP(w) = 127 + w[23]`. -/
theorem test_codec_exponent :
    codecValue { cfgF with codecExp := .window 127 23 1 } 0x00800001 = Dyadic.ofIntWithPrec 3 0 := by
  decide +kernel
/-- 95 section 3: CACHE_LINES = 3, not a power of two. -/
theorem test_three_lines :
    obs (.load 5) (small { cfg4 with cacheLines := 3 } [] 0 0) (fun t => t.slot) = some 2 := by decide
/-- X1: out of range changes nothing but FAULT. -/
theorem test_out_of_range : exec (.load 524288) (small cfg4 [] 7 8) =
    .next { small cfg4 [] 7 8 with fault := some .addressOutOfRange, engState := .faulted } := rfl
/-- X4: an unassigned opcode is resolved, then faults. -/
theorem test_unassigned_fault :
    (match runWord 0xFF000001 (small cfg4 [(1, 10)] 0 0) with
      | .next t => some (faultCode t.fault, t.line 1, t.misses)
      | _ => none) = some (3, ⟨true, 1, 10⟩, 1) := by decide
/-- 95 section 8, the policy variant: under Nop the word retires. -/
theorem test_unassigned_nop :
    (match runWord 0x00000003 (small { cfg4 with unassignedPolicy := .nop } [] 0 0) with
      | .next t => some (t.pc, t.fault, t.misses)
      | _ => none) = some (1, none, 1) := by decide
/-- W2: the unwritten AC is found before the zero divisor. -/
theorem test_unwritten_first :
    obs (.divide 7) (small { cfg4 with regInit := .unwritten } [] 0 0) (fun t => faultCode t.fault) =
      some 4 := by decide
/-- W6: LOAD_MQ sets the mark that MQ_TO_AC reads. -/
theorem test_marks :
    obs (.loadMq 3) (small { cfg4 with regInit := .unwritten } [] 0 0) (fun t => t.written) =
      some ⟨false, true, false, false, false, false⟩ := by decide
/-- E1 and S2: FETCH, then one whole instruction, from reset. -/
theorem test_first_step :
    (match step (State.reset.withFetchWord 32 0x01000005) with
      | .next t => some (t.pc, t.ir, t.opc, t.opnd, t.ac, t.misses)
      | _ => none) = some (1, 0x01000005, 1, 5, 0, 1) := by decide
/-- S1: an empty program halts at its first FETCH. -/
theorem test_empty_program : step State.reset = .next { State.reset with engState := .halted } := rfl
/-- R206: after a fault the latches hold the faulting instruction. -/
theorem test_fault_latches :
    (match step (State.launch cfg4 [] [0x0C000007]) with
      | .next t => some (t.pc, t.ir, t.opnd, t.slot, faultCode t.fault)
      | _ => none) = some (0, 0x0C000007, 7, 3, 1) := by decide
/-- R114: the engine's own RESOLVE transition. -/
theorem test_tick_resolve :
    (tick { small cfg4 [(5, 42)] 0 0 with engState := .resolve, opnd := 5 }).map
      (fun t => (t.engState.code, t.hit, t.slot, t.line 1)) = some (3, false, 1, ⟨true, 5, 42⟩) := by decide
/-- R232, R213: a launch from feeds, and the dump that skips address 0. -/
theorem test_launch_and_dump :
    (match launchFeeds { cfg4 with memWords := 4 } [9, -1, 0, 7] [16777221] with
      | .ok s => some (s.mem, s.memoryDump, s.prog)
      | .error _ => none) =
      some ([(0, 9), (1, -1), (3, 7)], [-1, 0, 7], [0x01000005]) := by decide
/-- U16: a short memory feed is refused. -/
theorem test_short_feed_refused :
    (match launchFeeds { cfg4 with memWords := 4 } [9, -1, 0] [] with
      | .ok _ => none
      | .error e => some e) = some .memoryFeedLength := by decide
/-- U16: so is a value that is no 32-bit integer. -/
theorem test_feed_value_refused :
    (match launchFeeds { cfg4 with memWords := 1 } [2 ^ 31] [] with
      | .ok _ => none
      | .error e => some e) = some .feedValueOutOfRange := by decide

/-! ### Witnesses: for every statement with hypotheses, a state and operands that meet them, clause by
clause, at the ends of the ranges -/

/-- REG_INIT = Zero, the last address holding 5. -/
def wZero : State := small cfg4 [(524287, 5)] 1 1

/-- REG_INIT = Unwritten, nothing written. -/
def wUnwritten : State := State.launch { cfg4 with regInit := .unwritten } [(524287, 5)] []

/-- REG_INIT = Unwritten, everything written. -/
def wWritten : State := { wUnwritten with written := ⟨true, true, true, true, true, true⟩ }

theorem witness_EncodeDecodeRoundTrip : decode 0x01FFFFFF = .ok (.load 0xFFFFFF) := by decide
theorem witness_AssemblerLineEncodes :
    16777215 ≤ 2 ^ 24 - 1 ∧ 2 ^ 24 - 1 < 16777216 := by decide
theorem witness_FeedIntegerIsTheSignedReading :
    (-(2 ^ 31) ≤ (-2147483648 : Int) ∧ (-2147483648 : Int) ≤ 2 ^ 31 - 1) ∧
    (-(2 ^ 31) ≤ (2147483647 : Int) ∧ (2147483647 : Int) ≤ 2 ^ 31 - 1) ∧
    (-2147483649 : Int) < -(2 ^ 31) ∧ 2 ^ 31 - 1 < (2147483648 : Int) := by decide
theorem witness_OutOfRangeOperandRaises :
    wZero.cfg.memWords ≤ (Instr.store 524288).operand.toNat ∧
    wZero.cfg.memWords ≤ (opndField 0x01080000).toNat ∧ wZero.cfg.memWords ≤ (opndField 0xFFFFFFFF).toNat := by
  decide
theorem witness_UnassignedOpcodeFollowsThePolicy :
    (decode 0x2207FFFF = .error (.unassignedOpcode 34) ∧ (opndField 0x2207FFFF).toNat < cfg4.memWords) ∧
    (small cfg4 [] 0 0).cfg.unassignedPolicy = .fault ∧
    (small { cfg4 with unassignedPolicy := .nop } [] 0 0).cfg.unassignedPolicy = .nop := by decide

/-- LOAD, LOAD_MQ and PRINT have no hypothesis but the range. -/
theorem witness_in_and_out_of_range :
    (524287 : Operand).toNat < wZero.cfg.memWords ∧ wZero.cfg.memWords ≤ (524288 : Operand).toNat := by decide
theorem witness_LoadWritesAcAndMq :
    (524287 : Operand).toNat < wZero.cfg.memWords ∧ wZero.cfg.memWords ≤ (524288 : Operand).toNat :=
  witness_in_and_out_of_range
theorem witness_LoadMqWritesMq :
    (524287 : Operand).toNat < wZero.cfg.memWords ∧ wZero.cfg.memWords ≤ (524288 : Operand).toNat :=
  witness_in_and_out_of_range
theorem witness_PrintEmitsTheView :
    (524287 : Operand).toNat < wZero.cfg.memWords ∧ wZero.cfg.memWords ≤ (524288 : Operand).toNat :=
  witness_in_and_out_of_range
theorem witness_MqToAcCopiesMq :
    ((524287 : Operand).toNat < wZero.cfg.memWords ∧ wZero.cfg.regInit = .zero) ∧
    ((524287 : Operand).toNat < wWritten.cfg.memWords ∧ wWritten.cfg.regInit = .unwritten ∧
      wWritten.written.mq = true) ∧
    wZero.cfg.memWords ≤ (524288 : Operand).toNat ∧
    ((524287 : Operand).toNat < wUnwritten.cfg.memWords ∧ wUnwritten.cfg.regInit = .unwritten ∧
      (wUnwritten.written.mq = false)) := by decide
theorem witness_StoreWritesThroughOnAMiss :
    ((524287 : Operand).toNat < wZero.cfg.memWords ∧ wZero.cfg.regInit = .zero ∧ wZero.mem.wf = true) ∧
    ((524287 : Operand).toNat < wWritten.cfg.memWords ∧ wWritten.cfg.regInit = .unwritten ∧
      wWritten.written.ac = true) ∧
    wZero.cfg.memWords ≤ (524288 : Operand).toNat ∧
    ((524287 : Operand).toNat < wUnwritten.cfg.memWords ∧ wUnwritten.cfg.regInit = .unwritten ∧
      (wUnwritten.written.ac = false)) := by decide
theorem witness_AddAddsModuloWordSize :
    ((524287 : Operand).toNat < wZero.cfg.memWords ∧ wZero.cfg.regInit = .zero) ∧
    ((524287 : Operand).toNat < wWritten.cfg.memWords ∧ wWritten.cfg.regInit = .unwritten ∧
      wWritten.written.ac = true) ∧
    wZero.cfg.memWords ≤ (524288 : Operand).toNat ∧
    ((524287 : Operand).toNat < wUnwritten.cfg.memWords ∧ wUnwritten.cfg.regInit = .unwritten ∧
      (wUnwritten.written.ac = false)) := by decide
theorem witness_SubtractTakesTheValueFromAc :
    ((524287 : Operand).toNat < wZero.cfg.memWords ∧ wZero.cfg.regInit = .zero) ∧
    ((524287 : Operand).toNat < wWritten.cfg.memWords ∧ wWritten.cfg.regInit = .unwritten ∧
      wWritten.written.ac = true) ∧
    wZero.cfg.memWords ≤ (524288 : Operand).toNat ∧
    ((524287 : Operand).toNat < wUnwritten.cfg.memWords ∧ wUnwritten.cfg.regInit = .unwritten ∧
      (wUnwritten.written.ac = false)) := by decide
theorem witness_MultiplyMultipliesMq :
    ((524287 : Operand).toNat < wZero.cfg.memWords ∧ wZero.cfg.regInit = .zero) ∧
    ((524287 : Operand).toNat < wWritten.cfg.memWords ∧ wWritten.cfg.regInit = .unwritten ∧
      wWritten.written.mq = true) ∧
    wZero.cfg.memWords ≤ (524288 : Operand).toNat ∧
    ((524287 : Operand).toNat < wUnwritten.cfg.memWords ∧ wUnwritten.cfg.regInit = .unwritten ∧
      (wUnwritten.written.mq = false)) := by decide
theorem witness_DivideDividesAc :
    ((524287 : Operand).toNat < wZero.cfg.memWords ∧ wZero.cfg.regInit = .zero ∧ wZero.view 524287 ≠ 0) ∧
    ((524287 : Operand).toNat < wWritten.cfg.memWords ∧ wWritten.cfg.regInit = .unwritten ∧
      wWritten.written.ac = true) ∧
    wZero.cfg.memWords ≤ (524288 : Operand).toNat ∧
    ((524287 : Operand).toNat < wUnwritten.cfg.memWords ∧ wUnwritten.cfg.regInit = .unwritten ∧
      (wUnwritten.written.ac = false)) ∧
    ((524286 : Operand).toNat < wZero.cfg.memWords ∧ wZero.view 524286 = 0) := by decide
theorem witness_AddFloatWritesFloatAc :
    ((524287 : Operand).toNat < wZero.cfg.memWords ∧ wZero.cfg.regInit = .zero) ∧
    ((524287 : Operand).toNat < wWritten.cfg.memWords ∧ wWritten.cfg.regInit = .unwritten ∧
      wWritten.written.ac = true) ∧
    wZero.cfg.memWords ≤ (524288 : Operand).toNat ∧
    ((524287 : Operand).toNat < wUnwritten.cfg.memWords ∧ wUnwritten.cfg.regInit = .unwritten ∧
      (wUnwritten.written.ac = false)) := by decide
theorem witness_SubtractFloatWritesFloatAc :
    ((524287 : Operand).toNat < wZero.cfg.memWords ∧ wZero.cfg.regInit = .zero) ∧
    ((524287 : Operand).toNat < wWritten.cfg.memWords ∧ wWritten.cfg.regInit = .unwritten ∧
      wWritten.written.ac = true) ∧
    wZero.cfg.memWords ≤ (524288 : Operand).toNat ∧
    ((524287 : Operand).toNat < wUnwritten.cfg.memWords ∧ wUnwritten.cfg.regInit = .unwritten ∧
      (wUnwritten.written.ac = false)) := by decide
theorem witness_MultiplyFloatWritesBothFloats :
    ((524287 : Operand).toNat < wZero.cfg.memWords ∧ wZero.cfg.regInit = .zero) ∧
    ((524287 : Operand).toNat < wWritten.cfg.memWords ∧ wWritten.cfg.regInit = .unwritten ∧
      wWritten.written.ac = true ∧ wWritten.written.mq = true) ∧
    wZero.cfg.memWords ≤ (524288 : Operand).toNat ∧
    ((524287 : Operand).toNat < wUnwritten.cfg.memWords ∧ wUnwritten.cfg.regInit = .unwritten ∧
      (wUnwritten.written.ac = false ∨ wUnwritten.written.mq = false)) := by decide
theorem witness_DivideFloatWritesBothFloats :
    ((524287 : Operand).toNat < wZero.cfg.memWords ∧ wZero.cfg.regInit = .zero ∧ wZero.view 524287 ≠ 0) ∧
    ((524287 : Operand).toNat < wWritten.cfg.memWords ∧ wWritten.cfg.regInit = .unwritten ∧
      wWritten.written.ac = true ∧ wWritten.written.mq = true) ∧
    wZero.cfg.memWords ≤ (524288 : Operand).toNat ∧
    ((524287 : Operand).toNat < wUnwritten.cfg.memWords ∧ wUnwritten.cfg.regInit = .unwritten ∧
      (wUnwritten.written.ac = false ∨ wUnwritten.written.mq = false)) ∧
    ((524286 : Operand).toNat < wZero.cfg.memWords ∧ wZero.view 524286 = 0) := by decide
theorem witness_LoadIoExchangesAc :
    ((524287 : Operand).toNat < wZero.cfg.memWords ∧ wZero.cfg.regInit = .zero) ∧
    ((524287 : Operand).toNat < wWritten.cfg.memWords ∧ wWritten.cfg.regInit = .unwritten ∧
      wWritten.written.ac = true ∧ wWritten.written.ioRegister = true) ∧
    wZero.cfg.memWords ≤ (524288 : Operand).toNat ∧
    ((524287 : Operand).toNat < wUnwritten.cfg.memWords ∧ wUnwritten.cfg.regInit = .unwritten ∧
      (wUnwritten.written.ac = false ∨ wUnwritten.written.ioRegister = false)) ∧
    ({ wZero with engState := .execute, opc := 2 } : State).engState = .execute ∧
    ({ wZero with engState := .execute, opc := 2 } : State).opc = 2 := by decide
theorem witness_StoreIoExchangesAc :
    ((524287 : Operand).toNat < wZero.cfg.memWords ∧ wZero.cfg.regInit = .zero) ∧
    ((524287 : Operand).toNat < wWritten.cfg.memWords ∧ wWritten.cfg.regInit = .unwritten ∧
      wWritten.written.ac = true ∧ wWritten.written.ioTemp = true) ∧
    wZero.cfg.memWords ≤ (524288 : Operand).toNat ∧
    ((524287 : Operand).toNat < wUnwritten.cfg.memWords ∧ wUnwritten.cfg.regInit = .unwritten ∧
      (wUnwritten.written.ac = false ∨ wUnwritten.written.ioTemp = false)) ∧
    ({ wZero with engState := .execute, opc := 3 } : State).engState = .execute ∧
    ({ wZero with engState := .execute, opc := 3 } : State).opc = 3 := by decide
theorem witness_UnwrittenReadRaises :
    (Instr.storeIo 524287).operand.toNat < wUnwritten.cfg.memWords ∧ wUnwritten.cfg.regInit = .unwritten ∧
    Reg.ioTemp ∈ regsRead (Instr.storeIo 524287).mnemonic ∧ wUnwritten.written.get .ioTemp = false := by decide
theorem witness_ZeroInitNeverRaisesUnwrittenRead :
    wZero.cfg.regInit = .zero ∧ wZero.fault ≠ some .unwrittenRead ∧ ∃ t, exec (.add 524287) wZero = .next t :=
  ⟨by decide, by decide, _, rfl⟩
theorem witness_DivideByZeroHasOneCause :
    wZero.fault = none ∧ obs (.divideFloat 7) wZero (fun t => t.fault) = some (some .divideByZero) := by decide
theorem witness_RegisterUseFollowsTheTable :
    (∃ t, exec (.load 524287) wZero = .next t) ∧ Reg.ioTemp ∉ regsWritten (Instr.load 524287).mnemonic ∧
    (Instr.load 524287).mnemonic ≠ .store := ⟨⟨_, rfl⟩, by decide, by decide⟩
theorem witness_StepKeepsTheProgram : ∃ t, step State.reset = .next t := ⟨_, rfl⟩
theorem witness_OutGrowsByTheEventsOfTheTable : ∃ t, exec (.print 524287) wZero = .next t := ⟨_, rfl⟩

/-- Two lists with the same operands, from states that differ in AC and in the memory. -/
theorem witness_CountsDependOnTheAddressesAlone :
    [Instr.load 1, .add 5].map Instr.operand = [Instr.print 1, .store 5].map Instr.operand ∧
    wZero.cfg = (small cfg4 [] 3 4).cfg ∧ wZero.hits = (small cfg4 [] 3 4).hits ∧
    wZero.misses = (small cfg4 [] 3 4).misses ∧
    (∀ k, (wZero.line k).valid = ((small cfg4 [] 3 4).line k).valid ∧
      (wZero.line k).tag = ((small cfg4 [] 3 4).line k).tag) ∧
    (execAll [.load 1, .add 5] wZero).isSome = true ∧
    (execAll [.print 1, .store 5] (small cfg4 [] 3 4)).isSome = true :=
  ⟨by decide, by decide, by decide, by decide, fun _ => ⟨rfl, rfl⟩, by decide, by decide⟩

/-- A program of one LOAD, at its first FETCH. -/
def wProgram : State := State.launch cfg4 [(5, 42)] [0x01000005]

theorem witness_HaltedRunCountsEveryInstruction :
    wProgram.engState = .fetch ∧ progWellFormed wProgram.prog = true ∧
    wProgram.pc.toNat ≤ wProgram.prog.length ∧
    wProgram.hits + wProgram.misses + (wProgram.prog.length - wProgram.pc.toNat) <
      2 ^ wProgram.cfg.counterWidth ∧
    (match Host.Core.run Sys2Proof.core 2 wProgram with
      | .next t => some (t : State).engState
      | _ => none) = some .halted := by decide
/-- Under the policy Nop, AC holding 20. -/
def wNop : State := small { cfg4 with unassignedPolicy := .nop } [] 20 0

/-- Between the STORE 1 and its reading back: an ADD 2 and an unassigned opcode on address 1. -/
theorem witness_StoredValueIsReadBack :
    (∀ w ∈ ([0x05000002, 0xFF000001] : List Word), (opndField w = 1 ∧ opcField w ≠ 33) ∨
      (opndField w).toNat % wNop.cfg.cacheLines ≠ (1 : Operand).toNat % wNop.cfg.cacheLines) ∧
    (runWords [encode (.store 1), 0x05000002, 0xFF000001] wNop).isSome = true :=
  ⟨by intro w hw; fin_cases hw <;> decide, by decide⟩
theorem witness_EvictionLosesAStoreHit :
    wZero.mem.wf = true ∧ (Instr.load 5).operand ≠ 1 ∧
    (Instr.load 5).operand.toNat % wZero.cfg.cacheLines = (1 : Operand).toNat % wZero.cfg.cacheLines ∧
    (execAll [.store 1, .load 5] wZero).isSome = true := by decide

/-- Address 1 resident in slot 1, and AC other than the cell: the next STORE 1 makes the line
divergent. -/
def wResident : State := { small cfg4 [(1, 10)] 20 10 with cl := [(1, ⟨true, 1, 10⟩)], slot := 1 }

theorem wResident_line (k : Nat) : wResident.line k = if k = 1 then ⟨true, 1, 10⟩ else Line.empty := rfl

theorem witness_invariant : wResident.Inv where
  cfg := by decide
  prog := by decide
  pc := by decide
  memWf := by decide
  memBelow := by decide
  clWf := by decide
  clBelow := by decide
  tagSlot := by
    intro k h
    rw [wResident_line] at h ⊢
    split at h
    · subst_vars
      decide
    · cases h
  tagRange := by
    intro k h
    rw [wResident_line] at h ⊢
    split at h
    · subst_vars
      decide
    · cases h
  hits := by decide
  misses := by decide
  slot := by decide
  fault := by decide
  halted := by decide
  fetched := by decide
  decoded := by decide
  resolved := by decide
  ioXfer := by decide
  written := by decide

theorem witness_DivergenceComesFromStoreHits :
    wResident.Inv ∧ obs (.store 1) wResident (fun t => t.divergent 1) = some true :=
  ⟨witness_invariant, by decide⟩
theorem witness_StepKeepsTheInvariant : wResident.Inv ∧ ∃ t, step wResident = .next t :=
  ⟨witness_invariant, _, rfl⟩
theorem witness_TransitionKeepsTheInvariant : wResident.Inv ∧ (tick wResident).isSome = true :=
  ⟨witness_invariant, by decide⟩
theorem witness_IoExchangesUndoEachOther :
    (execAll [.loadIo 524287, .storeIo 0] wZero).isSome = true ∧
    (execAll [.storeIo 524287, .loadIo 0] wZero).isSome = true := by decide
theorem witness_StepRunsTheDecodedInstruction :
    (wProgram.engState = .fetch ∧ wProgram.fetchWord? = some 0x01000005 ∧
      decode 0x01000005 = .ok (.load 5)) ∧
    (State.launch cfg4 [] [0xFF000001]).engState = .fetch ∧
    (State.launch cfg4 [] [0xFF000001]).fetchWord? = some 0xFF000001 ∧
    decode 0xFF000001 = .error (.unassignedOpcode 255) := by decide
theorem witness_PlacedWordIsFetched : 4294967295 < 2 ^ 32 := by decide
theorem witness_FetchReadsOrHalts :
    (wProgram.engState = .fetch ∧ wProgram.pc.toNat < wProgram.prog.length) ∧
    wZero.engState = .fetch ∧ wZero.prog.length ≤ wZero.pc.toNat := by decide
theorem witness_DecodeAndResolveTransitions :
    ({ wZero with engState := .decode } : State).engState = .decode ∧
    (524287 : Operand).toNat < wZero.cfg.memWords ∧ wZero.cfg.memWords ≤ (524288 : Operand).toNat ∧
    ({ wZero with engState := .resolve, opnd := 524288 } : State).engState = .resolve := by decide
theorem witness_TerminalStatesAreStuck :
    (wZero.halt).engState = .halted ∧ (wZero.raise .divideByZero).engState = .faulted := by decide
theorem witness_StepIsTheEngineTransitions :
    (wProgram.engState = .fetch ∧ wProgram.fetchWord? = some 0x01000005) ∧
    (wZero.engState = .fetch ∧ wZero.fetchWord? = none) ∧
    (State.launch cfg4 [] [0x03080000]).fetchWord? = some 0x03080000 ∧
    cfg4.memWords ≤ (opndField 0x03080000).toNat ∧ opcField 0x0307FFFF = 3 ∧
    (opndField 0x0307FFFF).toNat < cfg4.memWords := by decide

/-- One step from the launch of a one-word program: the engine's state and the code the host reads. -/
def faultOf (cfg : Config) (w : Word) : Option (EngState × BitVec 3) :=
  match step (State.launch cfg [] [w]) with
  | .next t => some (t.engState, t.report.faultCode)
  | _ => none

/-- A fault of each cause (X1, X4, X5; the last is an ADD under REG_INIT = Unwritten). -/
theorem witness_FaultRecordsTheInstruction :
    faultOf cfg4 0x0C000007 = some (.faulted, 1) ∧ faultOf cfg4 0x01080000 = some (.faulted, 2) ∧
    faultOf cfg4 0xFF000001 = some (.faulted, 3) ∧
    faultOf { cfg4 with regInit := .unwritten } 0x05000000 = some (.faulted, 4) ∧
    (State.launch cfg4 [] [0x0C000007]).fetchWord? = some 0x0C000007 ∧
    (opndField 0x0C000007).toNat < cfg4.memWords := by decide
theorem witness_EngineAndFaultCodesFollowTheTables :
    wZero.fault = none ∧ ∀ f, (wZero.raise f).fault = some f := ⟨rfl, fun _ => rfl⟩
theorem witness_EveryRunEnds : wProgram.engState = .fetch ∧ progWellFormed wProgram.prog = true := by decide
theorem witness_LaunchHasTheInvariant :
    (launchFeeds { cfg4 with memWords := 2 } [2147483647, -2147483648] [16777217]).toBool = true := by decide
theorem witness_LaunchGivesTheResetValues : cfg4.regInit = .zero := by decide
theorem witness_LaunchCopiesTheFeeds :
    (launchFeeds { cfg4 with memWords := 2 } [2147483647, -2147483648] [16777217]).toBool = true ∧
    (Config.wellFormed { cfg4 with memWords := 2 }) = true ∧
    ∀ n ∈ ([2147483647, -2147483648] : List Int) ++ [16777217], -(2 ^ 31) ≤ n ∧ n ≤ 2 ^ 31 - 1 := by decide
theorem witness_QuotientRoundsTowardZero :
    ((-2147483648 : Word).toInt = -(2 ^ 31) ∧ (1 : Word).toInt ≠ 0 ∧ (1 : Word).toInt ≠ -1) ∧
    ((-2147483647 : Word).toInt ≠ -(2 ^ 31) ∧ (-1 : Word).toInt = -1) := by decide
theorem witness_MantissaCornerCases :
    (0xFF800000 : Word).toNat % 2 ^ 23 = 0 ∧ (1 : Word).toNat % 2 ^ 23 = 1 ∧
    (0x00400000 : Word).toNat % 2 ^ 23 = 2 ^ 22 ∧ (0xFFFFFFFF : Word).toNat % 2 ^ 23 = 2 ^ 23 - 1 ∧
    (0x80000001 : Word).toNat % 2 ^ 23 = (1 : Word).toNat % 2 ^ 23 := by decide

end Sys2Proof.Tests
end

namespace Sys2Proof.Proofs

open Sys2Proof Sys2Proof.Machine

/-! ### Integer arithmetic on Words

The model forms each result exactly, on the signed readings, and narrows it to 32 bits (R9). Narrowing
is a ring homomorphism onto the Words, and it undoes the signed reading, so each operation is the
wrapping one of `BitVec`. -/

theorem addW_eq_add (a b : Word) : addW a b = a + b :=
  calc addW a b
    _ = BitVec.ofInt 32 a.toInt + BitVec.ofInt 32 b.toInt := BitVec.ofInt_add _ _
    _ = a + b := by simp only [BitVec.ofInt_toInt]

/-- The library has no `BitVec.ofInt_sub`, so the signed readings are compared: both are the exact
difference reduced to the signed range. -/
theorem subW_eq_sub (a b : Word) : subW a b = a - b :=
  BitVec.eq_of_toInt_eq <|
    calc (subW a b).toInt
      _ = (a.toInt - b.toInt).bmod (2 ^ 32) := BitVec.toInt_ofInt _
      _ = (a - b).toInt := BitVec.toInt_sub.symm

theorem mulW_eq_mul (a b : Word) : mulW a b = a * b :=
  calc mulW a b
    _ = BitVec.ofInt 32 a.toInt * BitVec.ofInt 32 b.toInt := BitVec.ofInt_mul _ _
    _ = a * b := by simp only [BitVec.ofInt_toInt]

/-- Settles O55: each of the three operations is the wrapping one of `BitVec`. -/
theorem integerResultsWrap : Obligations.IntegerResultsWrap :=
  fun a b => ⟨addW_eq_add a b, subW_eq_sub a b, mulW_eq_mul a b⟩

end Sys2Proof.Proofs

namespace Sys2Proof.Proofs

open Sys2Proof Sys2Proof.Machine

/-! ### Codes -/

/-- Settles O60: each clause is an entry of one of the two code tables. -/
theorem engineAndFaultCodesFollowTheTables : Obligations.EngineAndFaultCodesFollowTheTables := by
  have seven_unused : ∀ e : EngState, e.code ≠ 7 := by
    intro e
    cases e <;> decide
  have reported (s : State) (f : Option FaultCause) (h : s.fault = f) :
      s.report.faultCode = faultCode f := congrArg faultCode h
  exact ⟨⟨rfl, rfl, rfl, rfl, rfl, rfl, rfl, seven_unused⟩, fun s =>
    ⟨reported s _, reported s _, reported s _, reported s _, reported s _⟩⟩

/-! ### Registers and lines under the operations that write none

What the engine itself does around a body (resolve, retire, raise) touches no data register, and a line
is read from CL alone. -/

@[simp] theorem regContent_resolve (s : State) (a : Operand) (r : Reg) :
    (s.resolve a).regContent r = s.regContent r := by
  cases r <;> rfl

@[simp] theorem regContent_retire (s : State) (r : Reg) :
    s.retire.regContent r = s.regContent r := by
  cases r <;> rfl

@[simp] theorem regContent_raise (s : State) (f : FaultCause) (r : Reg) :
    (s.raise f).regContent r = s.regContent r := by
  cases r <;> rfl

@[simp] theorem line_retire (s : State) (k : Nat) : s.retire.line k = s.line k := rfl

@[simp] theorem line_raise (s : State) (f : FaultCause) (k : Nat) :
    (s.raise f).line k = s.line k := rfl

theorem line_eq_of_cl_eq {s t : State} (h : t.cl = s.cl) (k : Nat) : t.line k = s.line k :=
  congrArg (CacheArray.read · k) h

/-- R61, R62: a resolve leaves a line alone or fills it, and fills the slot of its address only. -/
theorem line_resolve_same_or_filled (s : State) (a : Operand) (k : Nat) :
    (s.resolve a).line k = s.line k ∨
      (k = a.toNat % s.cfg.cacheLines ∧ (s.resolve a).line k = ⟨true, a, s.memRead a⟩) := by
  rw [State.line_resolve]
  split
  · exact .inr ⟨And.right ‹_›, rfl⟩
  · exact .inl rfl

/-! ### Faults after the resolve -/

/-- R117: raising on the resolved state is a fault that keeps the resolve's effects and nothing else. -/
theorem faultsAfterResolve_raise (s : State) (a : Operand) (f : FaultCause) :
    FaultsAfterResolve s a f ((s.resolve a).raise f) where
  fault := rfl
  engState := rfl
  pc := rfl
  same := ⟨rfl, rfl, rfl, rfl, rfl⟩
  counted := ⟨rfl, rfl, rfl, rfl⟩
  filled := fun k => s.line_resolve a k
  memory := fun _ => rfl
  regs := fun r => by simp
  written := rfl
  out := rfl

theorem reading_of_unreadable {rs : List Reg} {b : Body} {a : Operand} {v : Word} {s : State}
    (h : s.readable rs = false) : reading rs b a v s = .error .unwrittenRead := by
  simp [reading, h]

theorem reading_nil (b : Body) : reading [] b = b := by
  funext a v s
  have unread : s.readable [] = true := (s.readable_iff []).2 (.inr (by simp))
  simp [reading, unread]

/-- R39, R207: every body of the map checks its R columns first. -/
theorem bodyOf_eq_reading (m : Mnemonic) : ∃ b, bodyOf m = reading (regsRead m) b := by
  cases m with
  | load | loadMq | print => exact ⟨_, (reading_nil _).symm⟩
  | _ => exact ⟨_, rfl⟩

theorem bodyOf_of_unreadable {m : Mnemonic} {a : Operand} {v : Word} {s : State}
    (h : s.readable (regsRead m) = false) : bodyOf m a v s = .error .unwrittenRead := by
  obtain ⟨b, hb⟩ := bodyOf_eq_reading m
  rw [hb, reading_of_unreadable h]

/-- A single unmarked register makes a group of reads fault. -/
theorem readable_eq_false {s : State} {rs : List Reg} {r : Reg} (hu : s.cfg.regInit = .unwritten)
    (hr : r ∈ rs) (hw : s.written.get r = false) : s.readable rs = false := by
  rw [Bool.eq_false_iff, ne_eq, State.readable_iff, hu]
  rintro (hz | hall)
  · cases hz
  · exact Bool.false_ne_true (hw.symm.trans (hall r hr))

/-- Settles O27: the resolved state is as unreadable as the state before it, so the body raises. -/
theorem unwrittenReadRaises : Obligations.UnwrittenReadRaises := by
  intro i s r ha hu hr hw
  have unreadable : (s.resolve i.operand).readable (regsRead i.mnemonic) = false :=
    readable_eq_false (s := s.resolve i.operand) hu hr hw
  refine ⟨_, ?_, faultsAfterResolve_raise s i.operand .unwrittenRead⟩
  rw [exec_eq, s.runInstr_in _ _ ha, bodyOf_of_unreadable unreadable]

/-! ### What a whole instruction writes -/

/-- Settles O31: along the three ways a whole instruction can end. -/
theorem registerUseFollowsTheTable : Obligations.RegisterUseFollowsTheTable := by
  intro i s t h
  rw [exec_eq] at h
  cases h
  rcases s.runInstr_cases i.operand (bodyOf i.mnemonic) with
    ⟨_, out⟩ | ⟨_, u, ok, retires⟩ | ⟨_, f, _, raises⟩
  · rw [out]
    exact ⟨fun r _ => by simp, fun _ => ⟨fun _ => rfl, fun k => .inl (by simp)⟩⟩
  · rw [retires]
    have keeps := body_keeps ok
    refine ⟨fun r hr => by simpa using keeps.regs r hr, fun hm => ?_⟩
    obtain ⟨hcl, hmem⟩ := keeps.sinks hm
    refine ⟨fun b => by simp [hmem], fun k => ?_⟩
    rw [line_retire, line_eq_of_cl_eq hcl]
    exact line_resolve_same_or_filled s i.operand k
  · rw [raises]
    exact ⟨fun r _ => by simp, fun _ => ⟨fun _ => rfl, line_resolve_same_or_filled s i.operand⟩⟩

/-! ### What the body of any opcode leaves alone -/

/-- A body that goes through is one of the map's, or an unassigned opcode's, which does nothing. -/
theorem bodyOfOpcode_ok {o : Opcode} {a : Operand} {v : Word} {s t : State}
    (h : bodyOfOpcode o a v s = .ok t) : t = s ∨ ∃ m, bodyOf m a v s = .ok t := by
  unfold bodyOfOpcode at h
  cases hm : mnemonicOf? o with
  | some m =>
    rw [hm] at h
    exact .inr ⟨m, h⟩
  | none =>
    simp only [hm, bodyUnassigned] at h
    split at h <;> cases h
    exact .inl rfl

/-- What the engine's own transitions need of a state after a body, whatever its opcode. -/
structure SameControl (s t : State) : Prop where
  cfg : t.cfg = s.cfg
  prog : t.prog = s.prog
  pc : t.pc = s.pc
  fault : t.fault = s.fault

theorem bodyOfOpcode_sameControl {o : Opcode} {a : Operand} {v : Word} {s t : State}
    (h : bodyOfOpcode o a v s = .ok t) : SameControl s t := by
  rcases bodyOfOpcode_ok h with rfl | ⟨m, hm⟩
  · exact ⟨rfl, rfl, rfl, rfl⟩
  · have keeps := body_keeps hm
    exact ⟨keeps.cfg, keeps.prog, keeps.pc, keeps.fault⟩

/-- Everything EXECUTE or IO_XFER can make of a body. -/
theorem runBody_cases (s : State) (a : Operand) (b : Body) :
    (∃ t, b a s.resolvedValue s = .ok t ∧ s.runBody a b = t.retire) ∨
      ∃ f, s.runBody a b = s.raise f := by
  unfold State.runBody
  split
  · exact .inl ⟨_, ‹_›, rfl⟩
  · exact .inr ⟨_, rfl⟩

/-- R119: a whole instruction is its range check, its resolve and its body. -/
theorem runInstr_eq (s : State) (a : Operand) (b : Body) :
    s.runInstr a b =
      if a.toNat < s.cfg.memWords then (s.resolve a).runBody a b
      else s.raise .addressOutOfRange := by
  by_cases h : a.toNat < s.cfg.memWords <;>
    simp [State.runInstr, State.resolveOperand, inRange, h]

/-- R114: RESOLVE, by the range of the operand. -/
theorem tickResolve_eq (s : State) :
    s.tickResolve =
      if s.opnd.toNat < s.cfg.memWords then { s.resolve s.opnd with engState := .execute }
      else s.raise .addressOutOfRange := by
  by_cases h : s.opnd.toNat < s.cfg.memWords <;>
    simp [State.tickResolve, State.resolveOperand, inRange, h]

/-! ### From one transition to many

`State.finish` takes transitions one by one, so what each transition keeps it keeps. -/

theorem finish_keeps {P : State → Prop} (keeps : ∀ s t, P s → tick s = some t → P t) :
    ∀ (n : Nat) (s : State), P s → P (State.finish n s)
  | 0, _, h => h
  | n + 1, s, h => by
    unfold State.finish
    split
    · exact h
    · cases ht : tick s with
      | none => exact h
      | some t => exact finish_keeps keeps n t (keeps s t h ht)

/-- Everything one step can do: the end of the run, a whole instruction from FETCH, or the rest of one
that has begun. -/
theorem step_cases {s t : State} (h : step s = .next t) :
    (s.engState = .fetch ∧ s.fetchWord? = none ∧ t = s.halt) ∨
    (s.engState = .fetch ∧ ∃ w, s.fetchWord? = some w ∧
      t = (s.latch w).runInstr (opndField w) (bodyOfOpcode (opcField w))) ∨
    t = State.finish 4 s := by
  cases he : s.engState with
  | fetch =>
    cases hw : s.fetchWord? with
    | none =>
      rw [step_halt he hw] at h
      cases h
      exact .inl ⟨rfl, rfl, rfl⟩
    | some w =>
      rw [step_fetch he hw, runWord_eq] at h
      cases h
      exact .inr (.inl ⟨rfl, w, rfl, rfl⟩)
  | decode | resolve | execute | ioXfer =>
    simp only [step, he] at h
    cases h
    exact .inr (.inr rfl)
  | halted | faulted =>
    simp only [step, he] at h
    cases h

/-! ### The program and the configuration -/

/-- R41, R78: what a state was launched with is as it was. -/
def SameProgram (s t : State) : Prop := t.prog = s.prog ∧ t.cfg = s.cfg

theorem sameProgram_runBody (s : State) (a : Operand) (o : Opcode) :
    SameProgram s (s.runBody a (bodyOfOpcode o)) := by
  rcases runBody_cases s a (bodyOfOpcode o) with ⟨t, ok, retires⟩ | ⟨f, raises⟩
  · have same := bodyOfOpcode_sameControl ok
    rw [retires]
    exact ⟨same.prog, same.cfg⟩
  · rw [raises]
    exact ⟨rfl, rfl⟩

theorem sameProgram_runInstr (s : State) (a : Operand) (o : Opcode) :
    SameProgram s (s.runInstr a (bodyOfOpcode o)) := by
  rw [runInstr_eq]
  split
  · exact sameProgram_runBody (s.resolve a) a o
  · exact ⟨rfl, rfl⟩

theorem sameProgram_tick {s t : State} (h : tick s = some t) : SameProgram s t := by
  rcases tick_cases h with ⟨_, rfl⟩ | ⟨_, rfl⟩ | ⟨_, rfl⟩ | ⟨_, rfl⟩ | ⟨_, rfl⟩
  · unfold State.tickFetch
    split <;> exact ⟨rfl, rfl⟩
  · exact ⟨rfl, rfl⟩
  · rw [tickResolve_eq]
    split <;> exact ⟨rfl, rfl⟩
  · unfold State.tickExecute
    split
    · exact ⟨rfl, rfl⟩
    · exact sameProgram_runBody s _ _
  · unfold State.tickIoXfer
    split
    · exact sameProgram_runBody s _ _
    · exact ⟨rfl, rfl⟩

theorem sameProgram_finish (n : Nat) (s : State) : SameProgram s (State.finish n s) := by
  refine finish_keeps (P := SameProgram s) ?_ n s ⟨rfl, rfl⟩
  intro t u ⟨hprog, hcfg⟩ h
  obtain ⟨hprog', hcfg'⟩ := sameProgram_tick h
  exact ⟨hprog'.trans hprog, hcfg'.trans hcfg⟩

/-- Settles O32: along the three things a step can do. -/
theorem stepKeepsTheProgram : Obligations.StepKeepsTheProgram := by
  intro s t h
  rcases step_cases h with ⟨_, _, rfl⟩ | ⟨_, w, _, rfl⟩ | rfl
  · exact ⟨rfl, rfl⟩
  · exact sameProgram_runInstr (s.latch w) _ _
  · exact sameProgram_finish 4 s

/-! ### The invariant of the storage

`State.Inv` says two kinds of things: what memory, cache, counters and marks look like, and how the
latches, PC and FAULT go with the engine's state. The first kind is all that a body can disturb, so it
has a predicate of its own, kept by each operation; the second kind is put back by the transition that
ends or advances the instruction. -/

/-- The clauses of `State.Inv` that speak of neither PC, FAULT, ENG_STATE nor the instruction latches. -/
structure StorageInv (s : State) : Prop where
  cfg : s.cfg.wellFormed = true
  prog : progWellFormed s.prog = true
  memWf : Memory.wf s.mem = true
  memBelow : Cells.below s.cfg.memWords s.mem = true
  clWf : CacheArray.wf s.cl = true
  clBelow : Cells.below s.cfg.cacheLines s.cl = true
  tagSlot : ∀ k, (s.line k).valid = true → (s.line k).tag.toNat % s.cfg.cacheLines = k
  tagRange : ∀ k, (s.line k).valid = true → (s.line k).tag.toNat < s.cfg.memWords
  hits : s.hits < 2 ^ s.cfg.counterWidth
  misses : s.misses < 2 ^ s.cfg.counterWidth
  slot : s.slot < s.cfg.cacheLines
  written : s.cfg.regInit = .zero → s.written = Written.none

theorem StorageInv.of_inv {s : State} (h : s.Inv) : StorageInv s := { h with }

theorem slotOf_lt {cfg : Config} (h : cfg.wellFormed = true) (a : Operand) :
    slotOf cfg a < cfg.cacheLines := by
  simp only [Config.wellFormed, Bool.and_eq_true, decide_eq_true_eq] at h
  exact Nat.mod_lt _ (by omega)

theorem countUp_lt (cfg : Config) (n : Nat) : countUp cfg n < 2 ^ cfg.counterWidth :=
  Nat.mod_lt _ (Nat.two_pow_pos _)

/-- R61, R62: the line a resolve fills carries a tag of its own slot, and in range. -/
theorem StorageInv.resolve {s : State} (h : StorageInv s) {a : Operand}
    (ha : a.toNat < s.cfg.memWords) : StorageInv (s.resolve a) where
  cfg := h.cfg
  prog := h.prog
  memWf := h.memWf
  memBelow := h.memBelow
  clWf := by
    rw [State.resolve_cl]
    split
    · exact h.clWf
    · exact CacheArray.wf_write _ _ _ h.clWf
  clBelow := by
    rw [State.resolve_cl]
    split
    · exact h.clBelow
    · exact Cells.below_write _ _ _ _ (slotOf_lt h.cfg a) h.clBelow
  tagSlot := fun k hv => by
    rcases line_resolve_same_or_filled s a k with same | ⟨hk, filled⟩
    · rw [same] at hv ⊢
      exact h.tagSlot k hv
    · rw [filled]
      exact hk.symm
  tagRange := fun k hv => by
    rcases line_resolve_same_or_filled s a k with same | ⟨_, filled⟩
    · rw [same] at hv ⊢
      exact h.tagRange k hv
    · rw [filled]
      exact ha
  hits := by
    rw [State.resolve_hits]
    split
    · exact countUp_lt _ _
    · exact h.hits
  misses := by
    rw [State.resolve_misses]
    split
    · exact h.misses
    · exact countUp_lt _ _
  slot := slotOf_lt h.cfg a
  written := h.written

theorem storeThrough_cl (s : State) (a : Operand) (v : Word) (hit : Bool) :
    (s.storeThrough a v hit).cl =
      s.cl.write (slotOf s.cfg a) { s.line (slotOf s.cfg a) with data := v } := by
  cases hit <;> rfl

theorem storeThrough_mem (s : State) (a : Operand) (v : Word) (hit : Bool) :
    (s.storeThrough a v hit).mem = if hit then s.mem else s.mem.write a.toNat v := by
  cases hit <;> rfl

/-- R65: a store writes neither TAG nor V of a resident line. -/
theorem line_storeThrough_valid_tag (s : State) (a : Operand) (v : Word) (hit : Bool) (k : Nat)
    (hr : s.hitsAt a = true) :
    ((s.storeThrough a v hit).line k).valid = (s.line k).valid ∧
      ((s.storeThrough a v hit).line k).tag = (s.line k).tag := by
  have hv : (s.line (slotOf s.cfg a)).valid = true := ((Line.holds_iff _ _).1 hr).1
  rw [s.line_storeThrough a v hit k hv]
  split
  · next hk => exact hk ▸ ⟨rfl, rfl⟩
  · exact ⟨rfl, rfl⟩

/-- R65, R66: a store to a resident address in range. -/
theorem StorageInv.storeThrough {s : State} (h : StorageInv s) {a : Operand}
    (ha : a.toNat < s.cfg.memWords) (hr : s.hitsAt a = true) (v : Word) (hit : Bool) :
    StorageInv (s.storeThrough a v hit) where
  cfg := by simpa using h.cfg
  prog := by simpa using h.prog
  memWf := by
    rw [storeThrough_mem]
    split
    · exact h.memWf
    · exact Memory.wf_write _ _ _ h.memWf
  memBelow := by
    rw [storeThrough_mem, State.storeThrough_cfg]
    split
    · exact h.memBelow
    · exact Cells.below_write _ _ _ _ ha h.memBelow
  clWf := by
    rw [storeThrough_cl]
    exact CacheArray.wf_write _ _ _ h.clWf
  clBelow := by
    rw [storeThrough_cl, State.storeThrough_cfg]
    exact Cells.below_write _ _ _ _ (slotOf_lt h.cfg a) h.clBelow
  tagSlot := fun k => by
    obtain ⟨hvalid, htag⟩ := line_storeThrough_valid_tag s a v hit k hr
    simpa only [hvalid, htag, State.storeThrough_cfg] using h.tagSlot k
  tagRange := fun k => by
    obtain ⟨hvalid, htag⟩ := line_storeThrough_valid_tag s a v hit k hr
    simpa only [hvalid, htag, State.storeThrough_cfg] using h.tagRange k
  hits := by simpa using h.hits
  misses := by simpa using h.misses
  slot := by simpa using h.slot
  written := by simpa using h.written

theorem Written.ext_get {w w' : Written} (h : ∀ r, w.get r = w'.get r) : w = w' := by
  cases w
  cases w'
  simp only [Written.mk.injEq]
  exact ⟨h .ac, h .mq, h .ioRegister, h .ioTemp, h .floatAC, h .floatMQ⟩

/-- Under REG_INIT = Zero a body sets no mark. -/
theorem written_eq_of_bodyKeeps {m : Mnemonic} {s t : State} (h : BodyKeeps m s t)
    (hz : s.cfg.regInit = .zero) : t.written = s.written :=
  Written.ext_get fun r => by rw [h.written r, hz]; simp

/-- Only STORE disturbs memory and cache, and it is run on a resident address. -/
theorem StorageInv.of_bodyOf {s t : State} (h : StorageInv s) {m : Mnemonic} {a : Operand} {v : Word}
    (ha : a.toNat < s.cfg.memWords) (hr : s.hitsAt a = true) (hb : bodyOf m a v s = .ok t) :
    StorageInv t := by
  by_cases hm : m = .store
  · subst hm
    simp only [bodyOf, bodyStore] at hb
    obtain ⟨_, hok⟩ := reading_ok hb
    cases hok
    exact h.storeThrough ha hr s.ac s.hit
  · have keeps := body_keeps hb
    obtain ⟨hcl, hmem⟩ := keeps.sinks hm
    exact
      { cfg := keeps.cfg ▸ h.cfg
        prog := keeps.prog ▸ h.prog
        memWf := hmem ▸ h.memWf
        memBelow := hmem ▸ keeps.cfg ▸ h.memBelow
        clWf := hcl ▸ h.clWf
        clBelow := hcl ▸ keeps.cfg ▸ h.clBelow
        tagSlot := fun k => line_eq_of_cl_eq hcl k ▸ keeps.cfg ▸ h.tagSlot k
        tagRange := fun k => line_eq_of_cl_eq hcl k ▸ keeps.cfg ▸ h.tagRange k
        hits := keeps.hits ▸ keeps.cfg ▸ h.hits
        misses := keeps.misses ▸ keeps.cfg ▸ h.misses
        slot := keeps.slot ▸ keeps.cfg ▸ h.slot
        written := fun hz => by
          rw [keeps.cfg] at hz
          rw [written_eq_of_bodyKeeps keeps hz, h.written hz] }

theorem StorageInv.of_bodyOfOpcode {s t : State} (h : StorageInv s) {o : Opcode} {a : Operand}
    {v : Word} (ha : a.toNat < s.cfg.memWords) (hr : s.hitsAt a = true)
    (hb : bodyOfOpcode o a v s = .ok t) : StorageInv t := by
  rcases bodyOfOpcode_ok hb with rfl | ⟨m, hm⟩
  · exact h
  · exact h.of_bodyOf ha hr hm

/-! ### The invariant at the end of an instruction -/

/-- R118: PC cannot wrap, a program having fewer than 2^31 words. -/
theorem retire_inv {s : State} (h : StorageInv s) (hpc : s.pc.toNat < s.prog.length)
    (hf : s.fault = none) : s.retire.Inv :=
  { h with
    pc := by
      have hlen : s.prog.length ≤ 2 ^ 31 - 1 := by simpa [progWellFormed] using h.prog
      have hnext : (s.pc + 1).toNat = s.pc.toNat + 1 := by bv_omega
      rw [State.retire_pc, hnext]
      exact hpc
    fault := by simp [hf]
    halted := by simp
    fetched := by simp [State.atBoundary]
    decoded := by simp
    resolved := by simp
    ioXfer := by simp }

/-- R117: PC stays on the faulting instruction. -/
theorem raise_inv {s : State} (h : StorageInv s) (hpc : s.pc.toNat ≤ s.prog.length)
    (f : FaultCause) : (s.raise f).Inv :=
  { h with
    pc := hpc
    fault := rfl
    halted := by simp
    fetched := by simp [State.atBoundary]
    decoded := by simp
    resolved := by simp
    ioXfer := by simp }

/-- R112: the run ends with PC just past the program. -/
theorem halt_inv {s : State} (h : StorageInv s) (hpc : s.pc.toNat = s.prog.length)
    (hf : s.fault = none) : s.halt.Inv :=
  { h with
    pc := hpc.le
    fault := by simp [hf]
    halted := fun _ => hpc
    fetched := by simp [State.atBoundary]
    decoded := by simp
    resolved := by simp
    ioXfer := by simp }

theorem runBody_inv {s : State} (h : StorageInv s) (hpc : s.pc.toNat < s.prog.length)
    (hf : s.fault = none) {a : Operand} (ha : a.toNat < s.cfg.memWords) (hr : s.hitsAt a = true)
    (o : Opcode) : (s.runBody a (bodyOfOpcode o)).Inv := by
  rcases runBody_cases s a (bodyOfOpcode o) with ⟨t, ok, retires⟩ | ⟨f, raises⟩
  · have same := bodyOfOpcode_sameControl ok
    rw [retires]
    exact retire_inv (h.of_bodyOfOpcode ha hr ok) (by rwa [same.pc, same.prog])
      (same.fault.trans hf)
  · rw [raises]
    exact raise_inv h hpc.le f

theorem runInstr_inv {s : State} (h : StorageInv s) (hpc : s.pc.toNat < s.prog.length)
    (hf : s.fault = none) (a : Operand) (o : Opcode) :
    (s.runInstr a (bodyOfOpcode o)).Inv := by
  rw [runInstr_eq]
  split
  · next ha => exact runBody_inv (h.resolve ha) hpc hf ha (s.hitsAt_resolve a) o
  · exact raise_inv h hpc.le _

/-! ### The invariant along the transitions -/

theorem fault_eq_none {s : State} (h : s.Inv) (he : s.engState ≠ .faulted) : s.fault = none := by
  have hf := h.fault
  rw [beq_false_of_ne he] at hf
  exact Option.isNone_iff_eq_none.1 (by simpa using hf)

theorem pc_lt_of_fetchWord {s : State} {w : Word} (h : s.fetchWord? = some w) :
    s.pc.toNat < s.prog.length :=
  (List.getElem?_eq_some_iff.1 h).1

/-- R112: with PC never past PLEN, no word left means PC stands exactly at PLEN. -/
theorem pc_eq_of_no_word {s : State} (h : s.Inv) (hw : s.fetchWord? = none) :
    s.pc.toNat = s.prog.length :=
  le_antisymm h.pc (List.getElem?_eq_none_iff.1 hw)

theorem isIoOpcode_iff (o : Opcode) : isIoOpcode o = true ↔ o = 2 ∨ o = 3 := by
  simp [isIoOpcode]

theorem tickFetch_inv {s : State} (h : s.Inv) (he : s.engState = .fetch) : s.tickFetch.Inv := by
  have hf : s.fault = none := fault_eq_none h (by simp [he])
  unfold State.tickFetch
  split
  · next w hw =>
    exact
      { h with
        fault := by simp [hf]
        halted := by simp
        fetched := fun _ => hw
        decoded := by simp
        resolved := by simp
        ioXfer := by simp }
  · next hw => exact halt_inv (.of_inv h) (pc_eq_of_no_word h hw) hf

theorem tickDecode_inv {s : State} (h : s.Inv) (he : s.engState = .decode) : s.tickDecode.Inv :=
  { h with
    fault := by simp [State.tickDecode, fault_eq_none h (by simp [he])]
    halted := by simp [State.tickDecode]
    fetched := fun _ => h.fetched (by simp [State.atBoundary, he])
    decoded := fun _ => ⟨rfl, rfl⟩
    resolved := by simp [State.tickDecode]
    ioXfer := by simp [State.tickDecode] }

theorem tickResolve_inv {s : State} (h : s.Inv) (he : s.engState = .resolve) :
    s.tickResolve.Inv := by
  rw [tickResolve_eq]
  split
  · next ha =>
    exact
      { StorageInv.resolve (.of_inv h) ha with
        pc := h.pc
        fault := by simp [fault_eq_none h (by simp [he])]
        halted := by simp
        fetched := fun _ => h.fetched (by simp [State.atBoundary, he])
        decoded := fun _ => h.decoded (.inl he)
        resolved := fun _ => ⟨ha, rfl, s.hitsAt_resolve s.opnd⟩
        ioXfer := by simp }
  · exact raise_inv (.of_inv h) h.pc _

/-- R115, R116: after RESOLVE the latched operand is in range and resident, which is what a body needs. -/
theorem runBody_inv_of_resolved {s : State} (h : s.Inv)
    (he : s.engState = .execute ∨ s.engState = .ioXfer) (o : Opcode) :
    (s.runBody s.opnd (bodyOfOpcode o)).Inv := by
  obtain ⟨ha, _, hr⟩ := h.resolved he
  have hw : s.fetchWord? = some s.ir :=
    h.fetched (by rcases he with he | he <;> simp [State.atBoundary, he])
  have hf : s.fault = none :=
    fault_eq_none h (by rcases he with he | he <;> simp [he])
  exact runBody_inv (.of_inv h) (pc_lt_of_fetchWord hw) hf ha hr o

theorem tickExecute_inv {s : State} (h : s.Inv) (he : s.engState = .execute) :
    s.tickExecute.Inv := by
  unfold State.tickExecute
  split
  · next hio =>
    exact
      { h with
        fault := by simp [fault_eq_none h (by simp [he])]
        halted := by simp
        fetched := fun _ => h.fetched (by simp [State.atBoundary, he])
        decoded := fun _ => h.decoded (.inr (.inl he))
        resolved := fun _ => h.resolved (.inl he)
        ioXfer := fun _ => (isIoOpcode_iff _).1 hio }
  · exact runBody_inv_of_resolved h (.inl he) _

theorem tickIoXfer_inv {s : State} (h : s.Inv) (he : s.engState = .ioXfer) :
    s.tickIoXfer.Inv := by
  rw [State.tickIoXfer, if_pos ((isIoOpcode_iff _).2 (h.ioXfer he))]
  exact runBody_inv_of_resolved h (.inr he) _

/-- Settles O49: one lemma a transition. -/
theorem transitionKeepsTheInvariant : Obligations.TransitionKeepsTheInvariant := by
  intro s t h ht
  rcases tick_cases ht with ⟨he, rfl⟩ | ⟨he, rfl⟩ | ⟨he, rfl⟩ | ⟨he, rfl⟩ | ⟨he, rfl⟩
  · exact tickFetch_inv h he
  · exact tickDecode_inv h he
  · exact tickResolve_inv h he
  · exact tickExecute_inv h he
  · exact tickIoXfer_inv h he

/-- Settles O48: a step ends the run, is a whole instruction, or is the transitions of O49. -/
theorem stepKeepsTheInvariant : Obligations.StepKeepsTheInvariant := by
  intro s t h ht
  rcases step_cases ht with ⟨he, hw, rfl⟩ | ⟨he, w, hw, rfl⟩ | rfl
  · exact halt_inv (.of_inv h) (pc_eq_of_no_word h hw) (fault_eq_none h (by simp [he]))
  · exact runInstr_inv (s := s.latch w) { h with } (pc_lt_of_fetchWord hw)
      (fault_eq_none (s := s) h (by simp [he])) _ _
  · exact finish_keeps transitionKeepsTheInvariant 4 s h

end Sys2Proof.Proofs

namespace Sys2Proof.Proofs

open Sys2Proof Sys2Proof.Machine

/-! ### The resolve

Whichever way a resolve goes, it leaves the slot of its address holding that address and its view. Hits,
misses, residency and what an instruction reads all follow from that. -/

theorem hitsAt_iff (s : State) (a : Operand) :
    s.hitsAt a = true ↔
      (s.line (slotOf s.cfg a)).valid = true ∧ (s.line (slotOf s.cfg a)).tag = a :=
  Line.holds_iff _ _

/-- R59, R70: the whole line of a resident address. -/
theorem line_of_hitsAt {s : State} {a : Operand} (h : s.hitsAt a = true) :
    s.line (slotOf s.cfg a) = ⟨true, a, s.view a⟩ := by
  obtain ⟨hvalid, htag⟩ := (hitsAt_iff s a).1 h
  have hdata : (s.line (slotOf s.cfg a)).data = s.view a := (if_pos h).symm
  cases hl : s.line (slotOf s.cfg a)
  simp only [hl] at hvalid htag hdata
  rw [hvalid, htag, hdata]

/-- R61, R62, R70: every line after a resolve, on a hit and on a miss alike. -/
theorem line_resolve_view (s : State) (a : Operand) (k : Nat) :
    (s.resolve a).line k = if k = slotOf s.cfg a then ⟨true, a, s.view a⟩ else s.line k := by
  rw [State.line_resolve]
  by_cases hk : k = slotOf s.cfg a
  · subst hk
    cases h : s.hitsAt a with
    | false => simp [State.fillLine, State.view, h]
    | true => simpa using line_of_hitsAt h
  · simp [hk]

theorem line_resolve_slot (s : State) (a : Operand) :
    (s.resolve a).line (slotOf s.cfg a) = ⟨true, a, s.view a⟩ := by
  rw [line_resolve_view, if_pos rfl]

theorem resolveCounted_resolve (s : State) (a : Operand) : ResolveCounted s a (s.resolve a) :=
  ⟨rfl, rfl, rfl, rfl⟩

/-- R61: a hit moves a counter and the latches and nothing else. -/
theorem resolve_of_hitsAt {s : State} {a : Operand} (h : s.hitsAt a = true) :
    s.resolve a =
      { s with hits := countUp s.cfg s.hits, hit := true, slot := slotOf s.cfg a } := by
  simp [State.resolve, h]

/-- Settles O8: the slot's line is the one `line_resolve_slot` gives. -/
theorem resolveFollowsItsAlgorithm : Obligations.ResolveFollowsItsAlgorithm := by
  intro s a
  have resident := line_resolve_slot s a
  exact ⟨resolveCounted_resolve s a, s.line_resolve a, hitsAt_iff s a,
    congrArg Line.valid resident, congrArg Line.tag resident, s.resolvedValue_resolve a, rfl⟩

/-- Settles O9: the first resolve leaves the address resident, so the second is a hit. -/
theorem secondResolveHits : Obligations.SecondResolveHits := by
  intro s a
  rw [resolve_of_hitsAt (s.hitsAt_resolve a)]
  exact ⟨rfl, rfl, rfl, rfl, rfl⟩

/-- Settles O10: the range check stands before the body, whichever body it is. -/
theorem outOfRangeOperandRaises : Obligations.OutOfRangeOperandRaises := by
  refine ⟨fun i s h => ?_, fun w s h => ?_⟩
  · rw [exec_eq, s.runInstr_out _ _ h]
    rfl
  · rw [runWord_eq, s.runInstr_out _ _ h]
    rfl

/-! ### Instructions that complete

An instruction that completes is its body on the resolved state, retired. Its slot then holds its
operand, its memory differs by a STORE that missed, and the rest is `BodyKeeps`. -/

theorem completed_body {i : Instr} {s t : State} (h : exec i s = .next t)
    (he : t.engState = .fetch) :
    i.operand.toNat < s.cfg.memWords ∧
      ∃ u, bodyOf i.mnemonic i.operand (s.view i.operand) (s.resolve i.operand) = .ok u ∧
        t = u.retire := by
  rw [exec_eq] at h
  cases h
  rcases s.runInstr_cases i.operand (bodyOf i.mnemonic) with
    ⟨_, out⟩ | ⟨inside, u, ok, retires⟩ | ⟨_, f, _, raises⟩
  · simp [out] at he
  · exact ⟨inside, u, ok, retires⟩
  · simp [raises] at he

theorem exec_of_body_ok {i : Instr} {s u : State} (ha : i.operand.toNat < s.cfg.memWords)
    (ok : bodyOf i.mnemonic i.operand (s.view i.operand) (s.resolve i.operand) = .ok u) :
    exec i s = .next u.retire := by
  rw [exec_eq, s.runInstr_in _ _ ha, ok]

/-- What a list of instructions that completes does first. -/
theorem execAll_cons {i : Instr} {is : List Instr} {s u : State}
    (h : execAll (i :: is) s = some u) :
    ∃ t, exec i s = .next t ∧ t.engState = .fetch ∧ execAll is t = some u := by
  unfold execAll at h
  split at h
  · split at h
    · exact ⟨_, ‹_›, ‹_›, h⟩
    · cases h
  all_goals cases h

/-- R133: STORE's body, where it goes through. -/
theorem bodyOf_store_ok {a : Operand} {v : Word} {s t : State} (h : bodyOf .store a v s = .ok t) :
    t = s.storeThrough a s.ac s.hit := by
  simp only [bodyOf, bodyStore] at h
  obtain ⟨_, hok⟩ := reading_ok h
  exact (Except.ok.inj hok).symm

/-- R65, R67: every line after a body on the resolved state. A STORE puts AC there, on a
hit and on a miss. -/
theorem line_bodyOf {m : Mnemonic} {a : Operand} {v : Word} {s u : State}
    (h : bodyOf m a v (s.resolve a) = .ok u) (k : Nat) :
    u.line k = if k = slotOf s.cfg a then ⟨true, a, if m = .store then s.ac else s.view a⟩
      else s.line k := by
  by_cases hm : m = .store
  · subst hm
    have hvalid : ((s.resolve a).line (slotOf (s.resolve a).cfg a)).valid = true :=
      congrArg Line.valid (line_resolve_slot s a)
    rw [bodyOf_store_ok h, State.line_storeThrough _ _ _ _ _ hvalid, State.resolve_cfg,
      line_resolve_slot, line_resolve_view, State.resolve_ac]
    split <;> rfl
  · obtain ⟨hcl, _⟩ := (body_keeps h).sinks hm
    rw [line_eq_of_cl_eq hcl, line_resolve_view, if_neg hm]

/-- R66, R67: every cell after a body on the resolved state: a STORE that misses writes its own. -/
theorem mem_bodyOf {m : Mnemonic} {a : Operand} {v : Word} {s u : State}
    (h : bodyOf m a v (s.resolve a) = .ok u) (hw : s.mem.wf = true) (b : Nat) :
    u.mem.read b =
      if m = .store ∧ s.hitsAt a = false ∧ b = a.toNat then s.ac else s.mem.read b := by
  by_cases hm : m = .store
  · subst hm
    rw [bodyOf_store_ok h, (s.resolve a).mem_storeThrough _ _ _ _ hw]
    exact if_congr (by simp) rfl rfl
  · obtain ⟨_, hmem⟩ := (body_keeps h).sinks hm
    simp [hmem, hm]

theorem mem_wf_bodyOf {m : Mnemonic} {a : Operand} {v : Word} {s u : State}
    (h : bodyOf m a v (s.resolve a) = .ok u) (hw : s.mem.wf = true) : u.mem.wf = true := by
  by_cases hm : m = .store
  · subst hm
    rw [bodyOf_store_ok h, storeThrough_mem]
    split
    · exact hw
    · exact Memory.wf_write _ _ _ hw
  · obtain ⟨_, hmem⟩ := (body_keeps h).sinks hm
    rw [hmem]
    exact hw

/-- R40, R118: what retirement after a body on the resolved state leaves. -/
theorem completes_retire {m : Mnemonic} {a : Operand} {v : Word} {s u : State}
    (h : bodyOf m a v (s.resolve a) = .ok u) : Completes s m a u.retire := by
  have keeps := body_keeps h
  exact
    { pc := congrArg (· + 1) keeps.pc
      engState := rfl
      fault := keeps.fault
      same := ⟨keeps.cfg, keeps.prog, keeps.ir, keeps.opc, keeps.opnd⟩
      counted := ⟨keeps.hit, keeps.slot, keeps.hits, keeps.misses⟩
      written := keeps.written }

/-! ### The cache as the addresses see it

An abstract controller that holds the counters and, for each slot, V and TAG, and that is driven by
operand addresses alone. The machine refines it instruction by instruction, which is R80. -/

/-- What hits and misses are decided from and counted in. -/
structure Residency where
  cfg : Config
  hits : Nat
  misses : Nat
  valid : Nat → Bool
  tag : Nat → Operand

/-- The abstraction of a state: everything but the counters, V and TAG is forgotten. -/
def residency (s : State) : Residency where
  cfg := s.cfg
  hits := s.hits
  misses := s.misses
  valid k := (s.line k).valid
  tag k := (s.line k).tag

/-- R59 on the abstraction. -/
def Residency.holds (r : Residency) (a : Operand) : Bool :=
  r.valid (slotOf r.cfg a) && r.tag (slotOf r.cfg a) == a

/-- R60 to R62 on the abstraction. On a hit the two updates write what is there. -/
def Residency.touch (r : Residency) (a : Operand) : Residency where
  cfg := r.cfg
  hits := if r.holds a then countUp r.cfg r.hits else r.hits
  misses := if r.holds a then r.misses else countUp r.cfg r.misses
  valid := Function.update r.valid (slotOf r.cfg a) true
  tag := Function.update r.tag (slotOf r.cfg a) a

theorem holds_residency (s : State) (a : Operand) : (residency s).holds a = s.hitsAt a := rfl

/-- R62: a resolve of another address of its slot evicts an address. -/
theorem holds_touch_of_same_slot {r : Residency} {a b : Operand} (hne : b ≠ a)
    (hslot : slotOf r.cfg b = slotOf r.cfg a) : (r.touch b).holds a = false := by
  simp [Residency.holds, Residency.touch, hslot, hne]

/-- The commuting square of one completed instruction. -/
theorem residency_of_completed {i : Instr} {s t : State} (h : exec i s = .next t)
    (he : t.engState = .fetch) : residency t = (residency s).touch i.operand := by
  obtain ⟨_, u, ok, rfl⟩ := completed_body h he
  have done := completes_retire ok
  simp only [residency, Residency.touch, Residency.mk.injEq]
  refine ⟨done.same.cfg, done.counted.hits, done.counted.misses, funext fun k => ?_,
    funext fun k => ?_⟩
  · rw [line_retire, line_bodyOf ok k, Function.update_apply]
    split <;> rfl
  · rw [line_retire, line_bodyOf ok k, Function.update_apply]
    split <;> rfl

/-- A completed list leaves what the abstract controller makes of its operands. -/
theorem residency_execAll {is : List Instr} {s u : State} (h : execAll is s = some u) :
    residency u = (is.map Instr.operand).foldl Residency.touch (residency s) := by
  induction is generalizing s with
  | nil =>
    cases h
    rfl
  | cons i is ih =>
    obtain ⟨t, hexec, he, hrest⟩ := execAll_cons h
    rw [ih hrest, residency_of_completed hexec he]
    rfl

/-- Settles O34: both runs are the abstract controller's run over one list of addresses. -/
theorem countsDependOnTheAddressesAlone : Obligations.CountsDependOnTheAddressesAlone := by
  intro is js s t s' t' hops hcfg hhits hmisses hlines hs ht
  have start : residency s = residency t := by
    simp only [residency, hcfg, hhits, hmisses, fun k => (hlines k).1, fun k => (hlines k).2]
  have finish : residency s' = residency t' :=
    calc residency s'
      _ = (is.map Instr.operand).foldl Residency.touch (residency s) := residency_execAll hs
      _ = (js.map Instr.operand).foldl Residency.touch (residency t) := by rw [hops, start]
      _ = residency t' := (residency_execAll ht).symm
  exact ⟨congrArg Residency.hits finish, congrArg Residency.misses finish, fun k =>
    ⟨congrArg (Residency.valid · k) finish, congrArg (Residency.tag · k) finish⟩⟩

/-! ### STORE -/

/-- R99: the opcode stands in the top byte of the encoding. -/
theorem encode_of_opcode (i : Instr) {o : Word}
    (h : (opcodeOf i.mnemonic).zeroExtend 32 <<< 24 = o) :
    encode i = o ||| i.operand.zeroExtend 32 :=
  congrArg (· ||| i.operand.zeroExtend 32) h

/-- Settles O15: one body for the completion, and the two faults every instruction has. -/
theorem storeWritesThroughOnAMiss : Obligations.StoreWritesThroughOnAMiss := by
  have opcode : (opcodeOf .store).zeroExtend 32 <<< 24 = (0x21000000 : Word) := by decide
  refine ⟨fun a => encode_of_opcode (.store a) opcode, fun s a ha hread hw => ?_,
    fun s a ha => ?_, fun s a ha hu hac => ?_⟩
  · have readable : (s.resolve a).readable [.ac] = true :=
      (State.readable_iff _ _).2 (hread.imp_right fun hac => by simpa [Written.get] using hac)
    have ok : bodyOf .store a (s.view a) (s.resolve a) =
        .ok ((s.resolve a).storeThrough a s.ac (s.hitsAt a)) := if_pos readable
    refine ⟨_, exec_of_body_ok (i := .store a) ha ok, completes_retire ok, line_bodyOf ok,
      fun b => ?_, ?_⟩
    · simpa using mem_bodyOf ok hw b
    · simp
  · exact outOfRangeOperandRaises.1 (.store a) s ha
  · exact unwrittenReadRaises (.store a) s .ac ha hu (by simp [regsRead, Instr.mnemonic]) hac

/-- Settles O37: the evictor leaves its own tag in the slot, and MEM at `a` as the STORE left it. -/
theorem evictionLosesAStoreHit : Obligations.EvictionLosesAStoreHit := by
  intro a i s u hw hne hslot h
  obtain ⟨t, hstore, hte, hrest⟩ := execAll_cons h
  obtain ⟨u', hexec, hue, hnil⟩ := execAll_cons hrest
  cases hnil
  obtain ⟨_, t', hbody, rfl⟩ := completed_body hstore hte
  have storeOk : bodyOf .store a (s.view a) (s.resolve a) = .ok t' := hbody
  have same := (completes_retire storeOk).same
  have evicted : u.hitsAt a = false := by
    rw [← holds_residency, residency_of_completed hexec hue]
    refine holds_touch_of_same_slot hne ?_
    rw [show (residency t'.retire).cfg = s.cfg from same.cfg]
    exact hslot
  have stored : t'.mem.read a.toNat = if s.hitsAt a then s.memRead a else s.ac := by
    rw [mem_bodyOf storeOk hw]
    cases s.hitsAt a <;> simp [State.memRead]
  have storedWf : t'.mem.wf = true := mem_wf_bodyOf storeOk hw
  obtain ⟨_, u', evictOk, rfl⟩ := completed_body hexec hue
  have kept : u'.mem.read a.toNat = t'.mem.read a.toNat := by
    rw [mem_bodyOf evictOk storedWf, if_neg]
    · rfl
    · rintro ⟨_, _, hab⟩
      exact hne (BitVec.eq_of_toNat_eq hab.symm)
  exact ⟨by simp [State.view, evicted], kept.trans stored⟩

/-! ### Divergence -/

theorem divergent_iff (s : State) (k : Nat) :
    s.divergent k = true ↔
      (s.line k).valid = true ∧ (s.line k).data ≠ s.mem.read (s.line k).tag.toNat := by
  simp [State.divergent, State.memRead]

/-- R71: divergence is a matter of one line and of the memory. -/
theorem divergent_of_line_eq {s t : State} {k : Nat} (hline : t.line k = s.line k)
    (hmem : t.mem = s.mem) (h : t.divergent k = true) : s.divergent k = true := by
  rw [divergent_iff] at h ⊢
  rwa [hline, hmem] at h

/-- R62: a filled line agrees with the memory. -/
theorem divergent_of_resolve {s : State} {a : Operand} {k : Nat}
    (h : (s.resolve a).divergent k = true) : s.divergent k = true := by
  rcases line_resolve_same_or_filled s a k with same | ⟨_, filled⟩
  · exact divergent_of_line_eq same rfl h
  · rw [divergent_iff, filled] at h
    exact absurd rfl h.2

/-- R71, R133: a STORE makes no line divergent but its own, on a hit, with an AC that MEM does not
hold. The tag of every other line is an address of another slot, so the memory write cannot reach it. -/
theorem divergent_of_store {a : Operand} {v : Word} {s u : State} {k : Nat} (inv : s.Inv)
    (ok : bodyOf .store a v (s.resolve a) = .ok u) (h : u.divergent k = true) :
    s.divergent k = true ∨
      (s.hitsAt a = true ∧ k = slotOf s.cfg a ∧ s.ac ≠ s.memRead a) := by
  obtain ⟨hvalid, hdata⟩ := (divergent_iff u k).1 h
  rw [mem_bodyOf ok inv.memWf, line_bodyOf ok k] at hdata
  rw [line_bodyOf ok k] at hvalid
  by_cases hk : k = slotOf s.cfg a
  · cases hhit : s.hitsAt a with
    | false => simp [hk, hhit] at hdata
    | true => exact .inr ⟨rfl, hk, by simpa [hk, hhit, State.memRead] using hdata⟩
  · rw [if_neg hk] at hvalid hdata
    have elsewhere : (s.line k).tag.toNat ≠ a.toNat := fun htag =>
      hk ((inv.tagSlot k hvalid).symm.trans (congrArg (· % s.cfg.cacheLines) htag))
    exact .inl ((divergent_iff s k).2 ⟨hvalid, by simpa [elsewhere] using hdata⟩)

/-- Settles O38: along the ways an instruction ends, a completed STORE apart. -/
theorem divergenceComesFromStoreHits : Obligations.DivergenceComesFromStoreHits := by
  intro i s t k inv h hdiv
  rw [exec_eq] at h
  cases h
  rcases s.runInstr_cases i.operand (bodyOf i.mnemonic) with
    ⟨_, out⟩ | ⟨_, u, ok, retires⟩ | ⟨_, f, _, raises⟩
  · rw [out] at hdiv
    exact .inl hdiv
  · rw [retires] at hdiv
    by_cases hm : i.mnemonic = .store
    · rw [hm] at ok
      exact (divergent_of_store inv ok hdiv).imp_right fun ⟨hhit, hk, hac⟩ => ⟨hm, hhit, hk, hac⟩
    · obtain ⟨hcl, hmem⟩ := (body_keeps ok).sinks hm
      exact .inl (divergent_of_resolve (divergent_of_line_eq (line_eq_of_cl_eq hcl k) hmem hdiv))
  · rw [raises] at hdiv
    exact .inl (divergent_of_resolve hdiv)

end Sys2Proof.Proofs

namespace Sys2Proof.Proofs

open Sys2Proof Sys2Proof.Machine

/-! ### The two fields of a word

A word is its opcode byte and its operand (R90), so a word is known once both fields are. Decoding
depends on the fields alone, and encoding is the word with given fields. -/

theorem opcField_toNat (w : Word) : (opcField w).toNat = w.toNat / 2 ^ 24 := by
  simp only [opcField, BitVec.extractLsb'_toNat, Nat.shiftRight_eq_div_pow]
  omega

theorem opndField_toNat (w : Word) : (opndField w).toNat = w.toNat % 2 ^ 24 := by
  simp [opndField, BitVec.extractLsb'_toNat]

/-- Settles O3: the two fields by value. -/
theorem decodeSplitsTheWord : Obligations.DecodeSplitsTheWord := fun w =>
  ⟨opcField_toNat w, opndField_toNat w⟩

theorem toNat_eq_fields (w : Word) :
    w.toNat = (opcField w).toNat * 2 ^ 24 + (opndField w).toNat := by
  rw [opcField_toNat, opndField_toNat, Nat.div_add_mod']

theorem eq_of_fields_eq {w w' : Word} (hopc : opcField w = opcField w')
    (hopnd : opndField w = opndField w') : w = w' :=
  BitVec.eq_of_toNat_eq (by rw [toNat_eq_fields, hopc, hopnd, ← toNat_eq_fields])

@[simp] theorem opcField_encode (i : Instr) : opcField (encode i) = opcodeOf i.mnemonic :=
  (Laws.fields_of_parts _ _).1

@[simp] theorem opndField_encode (i : Instr) : opndField (encode i) = i.operand :=
  (Laws.fields_of_parts _ _).2

/-- R99: the two fields do not overlap, so `(OPC << 24) | a` is a sum. -/
theorem encode_toNat (i : Instr) :
    (encode i).toNat = (opcodeOf i.mnemonic).toNat * 2 ^ 24 + i.operand.toNat := by
  rw [toNat_eq_fields, opcField_encode, opndField_encode]

/-! ### The opcode map -/

theorem opcodeOf_of_mem_opcodeMap : ∀ row ∈ opcodeMap, opcodeOf row.2 = row.1 := by decide

/-- R94: the table read by opcode and the table read by mnemonic are the same table. -/
theorem mnemonicOf?_eq_some_iff (o : Opcode) (m : Mnemonic) :
    mnemonicOf? o = some m ↔ opcodeOf m = o := by
  constructor
  · intro h
    obtain ⟨row, found, rfl⟩ := Option.map_eq_some_iff.1 h
    rw [opcodeOf_of_mem_opcodeMap row (List.mem_of_find?_eq_some found)]
    simpa using List.find?_some found
  · rintro rfl
    cases m <;> rfl

/-- R96: the opcode values outside the map. No row has such a value, and the 15 rows leave no other. -/
theorem mnemonicOf?_eq_none_iff (o : Opcode) :
    mnemonicOf? o = none ↔
      o.toNat = 0 ∨ (15 ≤ o.toNat ∧ o.toNat ≤ 32) ∨ 34 ≤ o.toNat := by
  simp only [mnemonicOf?, opcodeMap, Option.map_eq_none_iff, List.find?_eq_none, List.forall_mem_cons,
    List.not_mem_nil, IsEmpty.forall_iff, implies_true, and_true, beq_iff_eq, ← BitVec.toNat_inj,
    BitVec.ofNat_eq_ofNat, BitVec.toNat_ofNat, Nat.reducePow, Nat.one_mod, Nat.reduceMod]
  omega

/-! ### Decoding -/

@[simp] theorem mnemonic_ofMnemonic (m : Mnemonic) (a : Operand) :
    (Instr.ofMnemonic m a).mnemonic = m := by
  cases m <;> rfl

@[simp] theorem operand_ofMnemonic (m : Mnemonic) (a : Operand) :
    (Instr.ofMnemonic m a).operand = a := by
  cases m <;> rfl

theorem ofMnemonic_mnemonic_operand (i : Instr) : Instr.ofMnemonic i.mnemonic i.operand = i := by
  cases i <;> rfl

theorem decode_eq_ok_iff (w : Word) (i : Instr) :
    decode w = .ok i ↔ opcField w = opcodeOf i.mnemonic ∧ opndField w = i.operand := by
  unfold decode
  constructor
  · intro h
    cases hm : mnemonicOf? (opcField w) with
    | none => simp [hm] at h
    | some m =>
      simp only [hm, Except.ok.injEq] at h
      subst h
      simpa using ((mnemonicOf?_eq_some_iff _ _).1 hm).symm
  · rintro ⟨hopc, hopnd⟩
    rw [(mnemonicOf?_eq_some_iff _ _).2 hopc.symm, hopnd]
    exact congrArg Except.ok (ofMnemonic_mnemonic_operand i)

theorem decode_eq_unassigned_iff (w : Word) (o : Opcode) :
    decode w = .error (.unassignedOpcode o) ↔ mnemonicOf? (opcField w) = none ∧ o = opcField w := by
  unfold decode
  cases hm : mnemonicOf? (opcField w) with
  | none => simp [eq_comm]
  | some m => simp

/-- Settles O1: both fields of the encoding are the instruction's own. -/
theorem decodeEncodeRoundTrip : Obligations.DecodeEncodeRoundTrip := fun i =>
  (decode_eq_ok_iff _ i).2 ⟨opcField_encode i, opndField_encode i⟩

/-- Settles O2: the word and the encoding have the same two fields. -/
theorem encodeDecodeRoundTrip : Obligations.EncodeDecodeRoundTrip := by
  intro w i h
  obtain ⟨hopc, hopnd⟩ := (decode_eq_ok_iff w i).1 h
  exact eq_of_fields_eq ((opcField_encode i).trans hopc.symm) ((opndField_encode i).trans hopnd.symm)

/-- Settles O4: the ranges are those of `mnemonicOf?_eq_none_iff`, read off the top byte. -/
theorem unassignedOpcodesDecodeToNothing : Obligations.UnassignedOpcodesDecodeToNothing := by
  intro w
  rw [← opcField_toNat, ← mnemonicOf?_eq_none_iff, decode_eq_unassigned_iff, and_iff_left rfl]

/-! ### The assembler line and the feed integer -/

theorem assemble_eq (m : Mnemonic) (n : Nat) :
    assemble ⟨m, n⟩ =
      if n ≤ 2 ^ 24 - 1 then some (encode (Instr.ofMnemonic m (BitVec.ofNat 24 n))) else none := by
  simp [assemble, AsmLine.wellFormed]

/-- Settles O6: the word is an encoding, whose value and whose decoding are known. -/
theorem assemblerLineEncodes : Obligations.AssemblerLineEncodes := by
  intro m n
  rw [assemble_eq]
  refine ⟨fun fits => ⟨_, if_pos fits, ?_, decodeEncodeRoundTrip _⟩,
    fun high => if_neg (Nat.not_le.2 high)⟩
  have operand : (BitVec.ofNat 24 n).toNat = n :=
    (BitVec.toNat_ofNat n 24).trans (Nat.mod_eq_of_lt (by omega))
  rw [encode_toNat, mnemonic_ofMnemonic, operand_ofMnemonic, operand]

theorem feedWord_eq (n : Int) :
    feedWord n = if -(2 ^ 31) ≤ n ∧ n ≤ 2 ^ 31 - 1 then some (BitVec.ofInt 32 n) else none := by
  simp [feedWord, feedWellFormed]

/-- Settles O7: narrowing an integer of the signed range loses nothing; the two samples are evaluated. -/
theorem feedIntegerIsTheSignedReading : Obligations.FeedIntegerIsTheSignedReading := by
  refine ⟨fun n low high => ⟨BitVec.ofInt 32 n, ?_, ?_⟩, fun n outside => ?_, by decide, by decide⟩
  · rw [feedWord_eq, if_pos ⟨low, high⟩]
  · exact BitVec.toInt_ofInt_eq_self (by decide) low (by omega)
  · rw [feedWord_eq, if_neg (by omega)]

/-- Settles O5: each instruction word is the encoding of what it decodes to. -/
theorem sampleWordsDecode : Obligations.SampleWordsDecode := by
  have decodes {i : Instr} {w : Word} (h : encode i = w) : decode w = .ok i :=
    h ▸ decodeEncodeRoundTrip i
  exact ⟨by decide, by decide, by decide, by decide, decodes (by decide), decodes (by decide),
    decodes (by decide), decodes (by decide), decodes (by decide),
    (decode_eq_unassigned_iff _ _).2 ⟨by decide, by decide⟩⟩

/-! ### Words that are run: the instruction, or the unassigned opcode by the policy -/

theorem runWord_of_decode_ok {w : Word} {i : Instr} (h : decode w = .ok i) (s : State) :
    runWord w s = exec i s := by
  simp only [runWord, h]

theorem runWord_of_decode_unassigned {w : Word} {o : Opcode}
    (h : decode w = .error (.unassignedOpcode o)) (s : State) :
    runWord w s = execUnassigned (opndField w) s := by
  simp only [runWord, h]

theorem bodyUnassigned_of_fault {s : State} (h : s.cfg.unassignedPolicy = .fault) (a : Operand)
    (v : Word) : bodyUnassigned a v s = .error .illegalOpcode := by
  simp [bodyUnassigned, h]

theorem bodyUnassigned_of_nop {s : State} (h : s.cfg.unassignedPolicy = .nop) (a : Operand)
    (v : Word) : bodyUnassigned a v s = .ok s := by
  simp [bodyUnassigned, h]

/-- Settles O11: the resolved state has the policy of the state before it, and is raised or retired as
it stands. -/
theorem unassignedOpcodeFollowsThePolicy : Obligations.UnassignedOpcodeFollowsThePolicy := by
  intro s w o h ha
  have runs : runWord w s = .next (s.runInstr (opndField w) bodyUnassigned) :=
    runWord_of_decode_unassigned h s
  rw [s.runInstr_in _ _ ha] at runs
  refine ⟨fun fault => ⟨_, ?_, faultsAfterResolve_raise s (opndField w) .illegalOpcode⟩,
    fun nop => ⟨(s.resolve (opndField w)).retire, ?_, rfl, rfl, rfl, ⟨rfl, rfl, rfl, rfl, rfl⟩,
      ⟨rfl, rfl, rfl, rfl⟩, s.line_resolve (opndField w), fun _ => rfl, fun r => by simp, rfl, rfl⟩⟩
  · rw [runs, bodyUnassigned_of_fault (s := s.resolve (opndField w)) fault]
  · rw [runs, bodyUnassigned_of_nop (s := s.resolve (opndField w)) nop]

/-- Settles O40: a step latches the word and runs it, along the two answers of the decoder. -/
theorem stepRunsTheDecodedInstruction : Obligations.StepRunsTheDecodedInstruction := by
  intro s w he hw
  have fetched : step s = runWord w (s.latch w) := step_fetch he hw
  exact ⟨fetched, fun i h => fetched.trans (runWord_of_decode_ok h _), fun o h =>
    ⟨((decode_eq_unassigned_iff w o).1 h).2, fetched.trans (runWord_of_decode_unassigned h _)⟩⟩

end Sys2Proof.Proofs

namespace Sys2Proof.Proofs

open Sys2Proof Sys2Proof.Machine

/-! ### The two ends of an instruction -/

/-- R117, R118: `t` is `s` after an instruction that retired, or that faulted with what the program can
see as it was. -/
def RetiresOrFaults (s t : State) : Prop :=
  (t.engState = .fetch ∧ t.pc = s.pc + 1 ∧ t.fault = s.fault) ∨
    (t.engState = .faulted ∧ t.fault.isSome = true ∧ t.pc = s.pc ∧ t.written = s.written ∧
      SameMemory s t ∧ t.out = s.out ∧ ∀ r, t.regContent r = s.regContent r)

/-- R200: every opcode's whole instruction ends in one of the two ways, unassigned ones too. A body
that raises has written nothing, so what remains is the resolve, which touches the cache alone. -/
theorem runInstr_retiresOrFaults (s : State) (a : Operand) (o : Opcode) :
    RetiresOrFaults s (s.runInstr a (bodyOfOpcode o)) := by
  rcases s.runInstr_cases a (bodyOfOpcode o) with
    ⟨_, out⟩ | ⟨_, u, ok, retires⟩ | ⟨_, f, _, raises⟩
  · rw [out]
    exact .inr ⟨rfl, rfl, rfl, rfl, fun _ => rfl, rfl, regContent_raise s _⟩
  · have same := bodyOfOpcode_sameControl ok
    rw [retires]
    exact .inl ⟨rfl, congrArg (· + 1) same.pc, same.fault⟩
  · rw [raises]
    exact .inr ⟨rfl, rfl, rfl, rfl, fun _ => rfl, rfl, fun r => by simp⟩

theorem bodyOfOpcode_opcodeOf (m : Mnemonic) : bodyOfOpcode (opcodeOf m) = bodyOf m := by
  simp [bodyOfOpcode, (mnemonicOf?_eq_some_iff (opcodeOf m) m).2 rfl]

/-- Settles O30: an instruction's body is its opcode's. -/
theorem instructionRetiresOrFaults : Obligations.InstructionRetiresOrFaults := fun i s =>
  ⟨_, exec_eq i s, bodyOfOpcode_opcodeOf i.mnemonic ▸ runInstr_retiresOrFaults s _ _⟩

/-! ### Bodies do not look at ENG_STATE

The whole-instruction meaning runs a body from FETCH, where the engine runs it from EXECUTE or IO_XFER.
A body neither reads nor writes ENG_STATE, so retiring or raising after it gives the same state. -/

/-- R32: the state with another code in ENG_STATE. -/
def withEngState (s : State) (e : EngState) : State := { s with engState := e }

/-- Running the body and changing ENG_STATE commute. -/
def IgnoresEngState (b : Body) : Prop :=
  ∀ a v s e, b a v (withEngState s e) = (b a v s).map (withEngState · e)

theorem IgnoresEngState.reading {b : Body} (h : IgnoresEngState b) (rs : List Reg) :
    IgnoresEngState (reading rs b) := by
  intro a v s e
  have readable : (withEngState s e).readable rs = s.readable rs := rfl
  unfold Machine.reading
  rw [readable]
  split
  · exact h a v s e
  · rfl

/-- A zero test on the resolved value comes before the state is used. -/
theorem IgnoresEngState.unlessZero {b : Body} (h : IgnoresEngState b) (f : FaultCause) :
    IgnoresEngState fun a v s => if v.toInt = 0 then .error f else b a v s := by
  intro a v s e
  dsimp only
  split
  · rfl
  · exact h a v s e

theorem storeThrough_withEngState (s : State) (e : EngState) (a : Operand) (v : Word) (hit : Bool) :
    (withEngState s e).storeThrough a v hit = withEngState (s.storeThrough a v hit) e := by
  cases hit <;> rfl

theorem bodyOf_ignoresEngState (m : Mnemonic) : IgnoresEngState (bodyOf m) := by
  cases m with
  | load | loadMq | print => exact fun _ _ _ _ => rfl
  | divide | divideFloat =>
    exact .reading (.unlessZero (b := fun _ _ _ => .ok _) (fun _ _ _ _ => rfl) .divideByZero) _
  | store =>
    have stores : IgnoresEngState fun a _ s => .ok (s.storeThrough a s.ac s.hit) :=
      fun a _ s e => congrArg Except.ok (storeThrough_withEngState s e a s.ac s.hit)
    exact stores.reading _
  | _ => exact .reading (fun _ _ _ _ => rfl) _

theorem bodyUnassigned_ignoresEngState : IgnoresEngState bodyUnassigned := by
  intro a v s e
  cases h : s.cfg.unassignedPolicy with
  | fault => rw [bodyUnassigned_of_fault h, bodyUnassigned_of_fault (s := withEngState s e) h]; rfl
  | nop => rw [bodyUnassigned_of_nop h, bodyUnassigned_of_nop (s := withEngState s e) h]; rfl

theorem bodyOfOpcode_ignoresEngState (o : Opcode) : IgnoresEngState (bodyOfOpcode o) := by
  unfold bodyOfOpcode
  split
  · exact bodyOf_ignoresEngState _
  · exact bodyUnassigned_ignoresEngState

theorem runBody_withEngState (s : State) (e : EngState) (a : Operand) (o : Opcode) :
    (withEngState s e).runBody a (bodyOfOpcode o) = s.runBody a (bodyOfOpcode o) := by
  have value : (withEngState s e).resolvedValue = s.resolvedValue := rfl
  unfold State.runBody
  rw [value, bodyOfOpcode_ignoresEngState]
  cases bodyOfOpcode o a s.resolvedValue s <;> rfl

theorem runInstr_withEngState (s : State) (e : EngState) (a : Operand) (o : Opcode) :
    (withEngState s e).runInstr a (bodyOfOpcode o) = s.runInstr a (bodyOfOpcode o) := by
  have resolve : (withEngState s e).resolve a = withEngState (s.resolve a) e := rfl
  rw [runInstr_eq, runInstr_eq, resolve, runBody_withEngState]
  rfl

/-! ### The engine's transitions, one by one -/

theorem tick_fetch {s : State} (he : s.engState = .fetch) : tick s = some s.tickFetch := by
  simp [tick, he]

theorem tick_decode {s : State} (he : s.engState = .decode) : tick s = some s.tickDecode := by
  simp [tick, he]

theorem tick_resolve {s : State} (he : s.engState = .resolve) : tick s = some s.tickResolve := by
  simp [tick, he]

theorem tick_execute {s : State} (he : s.engState = .execute) : tick s = some s.tickExecute := by
  simp [tick, he]

theorem tick_ioXfer {s : State} (he : s.engState = .ioXfer) : tick s = some s.tickIoXfer := by
  simp [tick, he]

theorem tickFetch_of_word {s : State} {w : Word} (hw : s.fetchWord? = some w) :
    s.tickFetch = { s with ir := w, engState := .decode } := by
  simp [State.tickFetch, hw]

theorem tickFetch_of_no_word {s : State} (hw : s.fetchWord? = none) : s.tickFetch = s.halt := by
  simp [State.tickFetch, hw]

/-- Settles O42: by whether `PROG[PC]` is there. -/
theorem fetchReadsOrHalts : Obligations.FetchReadsOrHalts := by
  refine fun s he => ⟨fun h => ?_, fun h => ?_⟩
  · have word : s.fetchWord? = some s.prog[s.pc.toNat] := List.getElem?_eq_getElem h
    rw [tick_fetch he, tickFetch_of_word word]
  · have no_word : s.fetchWord? = none := List.getElem?_eq_none h
    exact ⟨by rw [tick_fetch he, tickFetch_of_no_word no_word]; rfl, step_halt he no_word⟩

/-- Settles O43: RESOLVE by the range of the latched operand. -/
theorem decodeAndResolveTransitions : Obligations.DecodeAndResolveTransitions := by
  refine fun s => ⟨fun he => tick_decode he, fun he ha => ?_, fun he ha => ?_⟩
  · rw [tick_resolve he, tickResolve_eq, if_pos ha]
  · rw [tick_resolve he, tickResolve_eq, if_neg ha.not_gt]
    rfl

/-- Settles O44: the two terminal codes have their own branch in both functions. -/
theorem terminalStatesAreStuck : Obligations.TerminalStatesAreStuck :=
  fun s => ⟨fun he => by simp [tick, step, he], fun he => by simp [tick, step, he]⟩

/-! ### Loading a word -/

/-- What stands before the placed word fills exactly the indices below it. -/
theorem getElem?_putWord_self (prog : List Word) (i : Nat) (w : Word) :
    (putWord prog i w)[i]? = some w := by
  have before : (prog.take i ++ List.replicate (i - prog.length) 0).length = i := by
    simp only [List.length_append, List.length_take, List.length_replicate]
    omega
  rw [putWord, List.getElem?_append_right before.le, before]
  simp

/-- Settles O41: a word of 32 bits is placed as it is. -/
theorem placedWordIsFetched : Obligations.PlacedWordIsFetched := by
  intro s w hw
  refine ⟨?_, rfl, rfl⟩
  calc (s.withFetchWord 32 w).fetchWord?
    _ = some (BitVec.ofNat 32 (w % 2 ^ 32)) := getElem?_putWord_self _ _ _
    _ = some (BitVec.ofNat 32 w) := by rw [Nat.mod_eq_of_lt hw]

/-! ### From one boundary to the next

The transitions are composed backwards from the boundary: what EXECUTE has left to do, then RESOLVE,
then FETCH and DECODE in front. -/

/-- R111: `n` transitions lead from `s` to `t`, the first state between instructions after `s`. -/
inductive ToBoundary : Nat → State → State → Prop where
  | last {s t : State} (ht : tick s = some t) (hb : t.atBoundary = true) : ToBoundary 1 s t
  | before {n : Nat} {s u t : State} (hu : tick s = some u) (hin : u.atBoundary = false)
      (rest : ToBoundary n u t) : ToBoundary (n + 1) s t

theorem ticks_succ {s u : State} (h : tick s = some u) (n : Nat) : ticks (n + 1) s = ticks n u := by
  simp [ticks, h]

theorem ToBoundary.ticks_eq {n : Nat} {s t : State} (h : ToBoundary n s t) : ticks n s = some t := by
  induction h with
  | last ht _ => exact ticks_succ ht 0
  | before hu _ _ ih => rw [ticks_succ hu, ih]

theorem ToBoundary.atBoundary {n : Nat} {s t : State} (h : ToBoundary n s t) :
    t.atBoundary = true := by
  induction h with
  | last _ hb => exact hb
  | before _ _ _ ih => exact ih

/-- No state strictly on the way is at a boundary. -/
theorem ToBoundary.inside {n : Nat} {s t : State} (h : ToBoundary n s t) :
    ∀ k u, 0 < k → k < n → ticks k s = some u → u.atBoundary = false := by
  induction h with
  | last _ _ =>
    intro k u hpos hlt
    omega
  | before hv hin _ ih =>
    intro k u hpos hlt hk
    obtain ⟨j, rfl⟩ := Nat.exists_eq_succ_of_ne_zero hpos.ne'
    rw [ticks_succ hv] at hk
    cases j with
    | zero =>
      cases hk
      exact hin
    | succ j => exact ih _ u (by omega) (by omega) hk

/-- A body ends its instruction: it retires to FETCH or raises to FAULTED. -/
theorem runBody_atBoundary (s : State) (a : Operand) (b : Body) :
    (s.runBody a b).atBoundary = true := by
  rcases runBody_cases s a b with ⟨t, _, retires⟩ | ⟨f, raises⟩
  · rw [retires]
    rfl
  · rw [raises]
    rfl

theorem toBoundary_of_ioXfer {s : State} (he : s.engState = .ioXfer)
    (hio : isIoOpcode s.opc = true) :
    ToBoundary 1 s (s.runBody s.opnd (bodyOfOpcode s.opc)) := by
  refine .last ?_ (runBody_atBoundary s _ _)
  rw [tick_ioXfer he, State.tickIoXfer, if_pos hio]

/-- R115, R116: one transition from EXECUTE, or two where the effect waits for IO_XFER. -/
def executeTransitions (o : Opcode) : Nat := if isIoOpcode o then 2 else 1

/-- R114: one transition from RESOLVE where it raises, else EXECUTE's after it. -/
def resolveTransitions (cfg : Config) (a : Operand) (o : Opcode) : Nat :=
  if a.toNat < cfg.memWords then executeTransitions o + 1 else 1

/-- R119: the transitions of a word's whole instruction, FETCH and DECODE first. -/
def wordTransitions (cfg : Config) (w : Word) : Nat :=
  resolveTransitions cfg (opndField w) (opcField w) + 2

/-- R119: 3, 5 or 4 in all. -/
theorem wordTransitions_eq (cfg : Config) (w : Word) :
    wordTransitions cfg w =
      if cfg.memWords ≤ (opndField w).toNat then 3
      else if opcField w = 2 ∨ opcField w = 3 then 5 else 4 := by
  unfold wordTransitions resolveTransitions executeTransitions
  simp only [← isIoOpcode_iff]
  by_cases ha : (opndField w).toNat < cfg.memWords
  · rw [if_pos ha, if_neg ha.not_ge]
    split <;> rfl
  · rw [if_neg ha, if_pos (not_lt.1 ha)]

theorem wordTransitions_bounds (cfg : Config) (w : Word) :
    1 ≤ wordTransitions cfg w ∧ wordTransitions cfg w ≤ 5 := by
  rw [wordTransitions_eq]
  split
  · omega
  · split <;> omega

/-- R115, R116: from EXECUTE, through IO_XFER for an I/O opcode. -/
theorem toBoundary_of_execute {s : State} (he : s.engState = .execute) :
    ToBoundary (executeTransitions s.opc) s (s.runBody s.opnd (bodyOfOpcode s.opc)) := by
  have transition : tick s = some s.tickExecute := tick_execute he
  unfold State.tickExecute at transition
  unfold executeTransitions
  split
  · next hio =>
    rw [if_pos hio] at transition
    rw [← runBody_withEngState s .ioXfer]
    exact .before transition rfl (toBoundary_of_ioXfer (s := withEngState s .ioXfer) rfl hio)
  · next hio =>
    rw [if_neg hio] at transition
    exact .last transition (runBody_atBoundary s _ _)

/-- R114: from RESOLVE, by the range of the operand. -/
theorem toBoundary_of_resolve {s : State} (he : s.engState = .resolve) :
    ToBoundary (resolveTransitions s.cfg s.opnd s.opc) s
      (s.runInstr s.opnd (bodyOfOpcode s.opc)) := by
  have transition : tick s = some s.tickResolve := tick_resolve he
  rw [tickResolve_eq] at transition
  rw [runInstr_eq]
  unfold resolveTransitions
  split
  · next inside =>
    rw [if_pos inside] at transition
    rw [← runBody_withEngState _ .execute]
    exact .before transition rfl
      (toBoundary_of_execute (s := withEngState (s.resolve s.opnd) .execute) rfl)
  · next outside =>
    rw [if_neg outside] at transition
    exact .last transition rfl

/-- R112 to R116: from FETCH, with a word left. -/
theorem toBoundary_of_word {s : State} {w : Word} (he : s.engState = .fetch)
    (hw : s.fetchWord? = some w) :
    ToBoundary (wordTransitions s.cfg w) s
      ((s.latch w).runInstr (opndField w) (bodyOfOpcode (opcField w))) := by
  have fetched : tick s = some { s with ir := w, engState := .decode } := by
    rw [tick_fetch he, tickFetch_of_word hw]
  have decoded : tick { s with ir := w, engState := .decode } =
      some (withEngState (s.latch w) .resolve) := tick_decode rfl
  rw [← runInstr_withEngState _ .resolve]
  exact .before fetched rfl (.before decoded rfl
    (toBoundary_of_resolve (s := withEngState (s.latch w) .resolve) rfl))

/-- R112: from FETCH, with no word left. -/
theorem toBoundary_of_no_word {s : State} (he : s.engState = .fetch) (hw : s.fetchWord? = none) :
    ToBoundary 1 s s.halt := by
  refine .last ?_ rfl
  rw [tick_fetch he, tickFetch_of_no_word hw]

theorem step_of_word {s : State} {w : Word} (he : s.engState = .fetch)
    (hw : s.fetchWord? = some w) :
    step s = .next ((s.latch w).runInstr (opndField w) (bodyOfOpcode (opcField w))) :=
  (step_fetch he hw).trans (runWord_eq w _)

/-- Settles O45: the step and the transitions give the same state, with and without a word left. -/
theorem stepIsTheEngineTransitions : Obligations.StepIsTheEngineTransitions := by
  intro s he
  cases hw : s.fetchWord? with
  | none =>
    have run := toBoundary_of_no_word he hw
    exact ⟨1, s.halt, le_rfl, by omega, run.ticks_eq, run.atBoundary, step_halt he hw, run.inside,
      fun _ => rfl, fun _ h => by cases h⟩
  | some w =>
    have run := toBoundary_of_word he hw
    obtain ⟨lower, upper⟩ := wordTransitions_bounds s.cfg w
    refine ⟨_, _, lower, upper, run.ticks_eq, run.atBoundary, step_of_word he hw, run.inside,
      fun h => (Option.some_ne_none w h).elim, fun _ h => ?_⟩
    rw [wordTransitions_eq, Option.some.inj h]

/-! ### Every run ends

Each instruction either ends the run or leaves PC one further, so the instructions left bound the run,
in steps and in transitions. -/

/-- R123: the run from `s` is over after at most `n` steps, and after at most `m` transitions. -/
def EndsWithin (n m : Nat) (s : State) : Prop :=
  (∃ k t, k ≤ n ∧ Host.Core.run Sys2Proof.core k s = .next t ∧ t.ended = true) ∧
    (∃ k t, k ≤ m ∧ ticks k s = some t ∧ t.ended = true)

theorem run_zero (s : State) : Host.Core.run Sys2Proof.core 0 s = .next s := rfl

theorem run_succ {s t : State} (h : step s = .next t) (k : Nat) :
    Host.Core.run Sys2Proof.core (k + 1) s = Host.Core.run Sys2Proof.core k t := by
  have core_step : Sys2Proof.core.step s = .next t := h
  simp only [Host.Core.run, core_step]

theorem ticks_add : ∀ (k l : Nat) (s : State), ticks (k + l) s = (ticks k s).bind (ticks l)
  | 0, l, s => by simp [ticks]
  | k + 1, l, s => by
    rw [Nat.succ_add]
    cases h : tick s with
    | none => simp [ticks, h]
    | some t => rw [ticks_succ h, ticks_succ h, ticks_add k l t]

theorem EndsWithin.of_ended {s : State} (h : s.ended = true) : EndsWithin 0 0 s :=
  ⟨⟨0, s, le_rfl, run_zero s, h⟩, ⟨0, s, le_rfl, rfl, h⟩⟩

/-- A run that ends after one more step, by the transitions that make up the step. -/
theorem EndsWithin.of_step {n m k : Nat} {s t : State} (hstep : step s = .next t)
    (hticks : ticks k s = some t) (h : EndsWithin n m t) : EndsWithin (n + 1) (m + k) s := by
  obtain ⟨⟨i, u, hi, hrun, hu⟩, ⟨j, v, hj, hv, hended⟩⟩ := h
  refine ⟨⟨i + 1, u, by omega, ?_, hu⟩, ⟨k + j, v, by omega, ?_, hended⟩⟩
  · rw [run_succ hstep, hrun]
  · rw [ticks_add, hticks, Option.bind_some, hv]

theorem EndsWithin.mono {n m n' m' : Nat} {s : State} (h : EndsWithin n m s) (hn : n ≤ n')
    (hm : m ≤ m') : EndsWithin n' m' s := by
  obtain ⟨⟨i, u, hi, hrun, hu⟩, ⟨j, v, hj, hv, hended⟩⟩ := h
  exact ⟨⟨i, u, hi.trans hn, hrun, hu⟩, ⟨j, v, hj.trans hm, hv, hended⟩⟩

/-- PC counts through the whole program without wrapping, since a program is shorter than 2^31. -/
theorem pc_succ_toNat {s : State} (hp : progWellFormed s.prog = true)
    (hpc : s.pc.toNat < s.prog.length) : (s.pc + 1).toNat = s.pc.toNat + 1 := by
  have short : s.prog.length ≤ 2 ^ 31 - 1 := by simpa [progWellFormed] using hp
  bv_omega

/-- R123: by induction on the instructions left. Past the program a FETCH halts. Otherwise the word
there raises, and the run is over, or retires, with one instruction fewer left. -/
theorem endsWithin_of_fetch : ∀ (d : Nat) (s : State), s.engState = .fetch →
    progWellFormed s.prog = true → s.prog.length - s.pc.toNat = d →
    EndsWithin (d + 1) (5 * d + 1) s := by
  intro d
  induction d with
  | zero =>
    intro s he _ hd
    have no_word : s.fetchWord? = none := List.getElem?_eq_none (by omega)
    exact EndsWithin.of_step (step_halt he no_word) (toBoundary_of_no_word he no_word).ticks_eq
      (.of_ended (s := s.halt) rfl)
  | succ d ih =>
    intro s he hp hd
    have hpc : s.pc.toNat < s.prog.length := by omega
    obtain ⟨w, hw⟩ : ∃ w, s.fetchWord? = some w := ⟨_, List.getElem?_eq_getElem hpc⟩
    have one_step {n m : Nat} := EndsWithin.of_step (n := n) (m := m) (step_of_word he hw)
      (toBoundary_of_word he hw).ticks_eq
    obtain ⟨_, upper⟩ := wordTransitions_bounds s.cfg w
    obtain ⟨hprog, _⟩ := sameProgram_runInstr (s.latch w) (opndField w) (opcField w)
    rcases runInstr_retiresOrFaults (s.latch w) (opndField w) (opcField w) with
      ⟨retired, further, _⟩ | ⟨faulted, _⟩
    · refine (one_step (ih _ retired (hprog ▸ hp) ?_)).mono le_rfl (by omega)
      rw [hprog, further, State.latch_pc, State.latch_prog, pc_succ_toNat hp hpc]
      omega
    · exact (one_step (.of_ended (by simp [State.ended, faulted]))).mono (by omega) (by omega)

/-- Settles O47: the bounds of `EndsWithin` for the instructions left. -/
theorem everyRunEnds : Obligations.EveryRunEnds :=
  fun s he hp => endsWithin_of_fetch _ s he hp rfl

end Sys2Proof.Proofs

namespace Sys2Proof.Proofs

open Sys2Proof Sys2Proof.Machine

/-! ### Instructions other than STORE

Such an instruction completes with the resolve's effects on lines and memory and no others, so a
statement about one of them turns on the state its body gives. -/

/-- R60 to R62, R118: an instruction whose body goes through completes, and only the resolve has
touched its storage. -/
theorem exec_completes_of_body_ok {i : Instr} {s u : State} (hm : i.mnemonic ≠ .store)
    (ha : i.operand.toNat < s.cfg.memWords)
    (ok : bodyOf i.mnemonic i.operand (s.view i.operand) (s.resolve i.operand) = .ok u) :
    exec i s = .next u.retire ∧ Completes s i.mnemonic i.operand u.retire ∧
      ResolveFilled s i.operand u.retire ∧ SameMemory s u.retire := by
  obtain ⟨hcl, hmem⟩ := (body_keeps ok).sinks hm
  refine ⟨exec_of_body_ok ha ok, completes_retire ok, fun k => ?_, fun b => ?_⟩
  · rw [line_retire, line_eq_of_cl_eq hcl]
    exact s.line_resolve i.operand k
  · rw [State.retire_mem, hmem, State.resolve_mem]

theorem readable_singleton {s : State} {r : Reg}
    (h : s.cfg.regInit = .zero ∨ s.written.get r = true) : s.readable [r] = true :=
  (s.readable_iff [r]).2 (by simpa using h)

/-! ### LOAD, LOAD_MQ and MQ_TO_AC -/

/-- Settles O12: LOAD's body reads no register, so in range it always goes through. -/
theorem loadWritesAcAndMq : Obligations.LoadWritesAcAndMq := by
  have opcode : (opcodeOf .load).zeroExtend 32 <<< 24 = (0x01000000 : Word) := by decide
  refine ⟨fun a => encode_of_opcode (.load a) opcode, fun s a ha => ?_,
    fun s a ha => outOfRangeOperandRaises.1 (.load a) s ha⟩
  have ok : bodyOf .load a (s.view a) (s.resolve a) =
      .ok (((s.resolve a).setAC (s.view a)).setMQ (s.view a)) := rfl
  obtain ⟨runs, completes, filled, memory⟩ :=
    exec_completes_of_body_ok (i := .load a) nofun ha ok
  exact ⟨_, runs, completes, filled, memory, by simp⟩

/-- Settles O13: as for LOAD, with AC left alone. -/
theorem loadMqWritesMq : Obligations.LoadMqWritesMq := by
  have opcode : (opcodeOf .loadMq).zeroExtend 32 <<< 24 = (0x09000000 : Word) := by decide
  refine ⟨fun a => encode_of_opcode (.loadMq a) opcode, fun s a ha => ?_,
    fun s a ha => outOfRangeOperandRaises.1 (.loadMq a) s ha⟩
  have ok : bodyOf .loadMq a (s.view a) (s.resolve a) = .ok ((s.resolve a).setMQ (s.view a)) := rfl
  obtain ⟨runs, completes, filled, memory⟩ :=
    exec_completes_of_body_ok (i := .loadMq a) nofun ha ok
  exact ⟨_, runs, completes, filled, memory, by simp⟩

/-- Settles O14: the body goes through where MQ may be read, and raises where it may not. -/
theorem mqToAcCopiesMq : Obligations.MqToAcCopiesMq := by
  have opcode : (opcodeOf .mqToAc).zeroExtend 32 <<< 24 = (0x0A000000 : Word) := by decide
  refine ⟨fun a => encode_of_opcode (.mqToAc a) opcode, fun s a ha hread => ?_,
    fun s a ha => outOfRangeOperandRaises.1 (.mqToAc a) s ha, fun s a ha hu hmq =>
    unwrittenReadRaises (.mqToAc a) s .mq ha hu (by simp [regsRead, Instr.mnemonic]) hmq⟩
  have readable : (s.resolve a).readable [.mq] = true :=
    readable_singleton (s := s.resolve a) (r := .mq) hread
  have ok : bodyOf .mqToAc a (s.view a) (s.resolve a) = .ok ((s.resolve a).setAC s.mq) :=
    if_pos readable
  obtain ⟨runs, completes, filled, memory⟩ :=
    exec_completes_of_body_ok (i := .mqToAc a) nofun ha ok
  exact ⟨_, runs, completes, filled, memory, by simp⟩

/-! ### Words that complete

What `completed_body` and `line_bodyOf` say of instructions, for every word: an unassigned opcode
that completes leaves its operand resident with its view, as any instruction but STORE does. -/

theorem completed_word {w : Word} {s t : State} (h : runWord w s = .next t)
    (he : t.engState = .fetch) :
    ∃ u, bodyOfOpcode (opcField w) (opndField w) (s.view (opndField w))
      (s.resolve (opndField w)) = .ok u ∧ t = u.retire := by
  rw [runWord_eq] at h
  cases h
  rcases s.runInstr_cases (opndField w) (bodyOfOpcode (opcField w)) with
    ⟨_, out⟩ | ⟨_, u, ok, retires⟩ | ⟨_, f, _, raises⟩
  · simp [out] at he
  · exact ⟨u, ok, retires⟩
  · simp [raises] at he

theorem opcodeOf_eq_store_iff (m : Mnemonic) : opcodeOf m = 33 ↔ m = .store := by
  cases m <;> decide

/-- R65, R67, R96: every line after the body of any opcode on the resolved state. -/
theorem line_bodyOfOpcode {o : Opcode} {a : Operand} {v : Word} {s u : State}
    (h : bodyOfOpcode o a v (s.resolve a) = .ok u) (k : Nat) :
    u.line k = if k = slotOf s.cfg a then ⟨true, a, if o = 33 then s.ac else s.view a⟩
      else s.line k := by
  unfold bodyOfOpcode at h
  cases hm : mnemonicOf? o with
  | some m =>
    rw [hm] at h
    obtain rfl := (mnemonicOf?_eq_some_iff o m).1 hm
    simpa only [opcodeOf_eq_store_iff] using line_bodyOf h k
  | none =>
    have no_store : o ≠ 33 := by
      rintro rfl
      cases hm
    simp only [hm, bodyUnassigned] at h
    split at h <;> cases h
    rw [line_resolve_view, if_neg no_store]

/-- R60 to R67: every line after a word that completes, and the configuration the slots go by. -/
theorem line_of_completed_word {w : Word} {s t : State} (h : runWord w s = .next t)
    (he : t.engState = .fetch) :
    t.cfg = s.cfg ∧ ∀ k, t.line k =
      if k = slotOf s.cfg (opndField w) then
        ⟨true, opndField w, if opcField w = 33 then s.ac else s.view (opndField w)⟩
      else s.line k := by
  obtain ⟨u, ok, rfl⟩ := completed_word h he
  exact ⟨(bodyOfOpcode_sameControl ok).cfg, fun k =>
    (line_retire u k).trans (line_bodyOfOpcode ok k)⟩

/-! ### A stored value is read back -/

/-- The slot of `a` caches `a` with the value `x`. -/
def CachesAs (a : Operand) (x : Word) (s : State) : Prop :=
  s.line (slotOf s.cfg a) = ⟨true, a, x⟩

theorem cachesAs_iff (a : Operand) (x : Word) (s : State) :
    CachesAs a x s ↔ s.view a = x ∧ s.hitsAt a = true := by
  constructor
  · intro h
    have hit : s.hitsAt a = true := by rw [hitsAt_iff, h]; exact ⟨rfl, rfl⟩
    exact ⟨congrArg Line.data ((line_of_hitsAt hit).symm.trans h), hit⟩
  · rintro ⟨rfl, hit⟩
    exact line_of_hitsAt hit

/-- R134: a word with no business in the slot of `a` but to resolve `a` itself, without storing. -/
def SparesAddress (cfg : Config) (a : Operand) (w : Word) : Prop :=
  (opndField w = a ∧ opcField w ≠ 33) ∨ slotOf cfg (opndField w) ≠ slotOf cfg a

theorem cachesAs_runWord {a : Operand} {x : Word} {w : Word} {s t : State} (hs : CachesAs a x s)
    (hw : SparesAddress s.cfg a w) (h : runWord w s = .next t) (he : t.engState = .fetch) :
    CachesAs a x t := by
  obtain ⟨hcfg, hline⟩ := line_of_completed_word h he
  unfold CachesAs
  rw [hcfg, hline]
  rcases hw with ⟨rfl, no_store⟩ | other_slot
  · obtain ⟨hview, _⟩ := (cachesAs_iff _ x s).1 hs
    rw [if_pos rfl, if_neg no_store, hview]
  · rw [if_neg other_slot.symm]
    exact hs

theorem cachesAs_runWords {a : Operand} {x : Word} {ws : List Word} {s u : State}
    (hs : CachesAs a x s) (hws : ∀ w ∈ ws, SparesAddress s.cfg a w)
    (h : runWords ws s = some u) : CachesAs a x u := by
  induction ws generalizing s with
  | nil =>
    cases h
    exact hs
  | cons w ws ih =>
    obtain ⟨t, hrun, he, hrest⟩ := runWords_cons h
    obtain ⟨hw, hws'⟩ := List.forall_mem_cons.1 hws
    obtain ⟨hcfg, _⟩ := line_of_completed_word hrun he
    exact ih (cachesAs_runWord hs hw hrun he) (hcfg ▸ hws') hrest

/-- R65, R67: a STORE leaves its address cached as AC. -/
theorem cachesAs_store {a : Operand} {s t : State} (h : runWord (encode (.store a)) s = .next t)
    (he : t.engState = .fetch) : CachesAs a s.ac t := by
  obtain ⟨hcfg, hline⟩ := line_of_completed_word h he
  have opcode : opcField (encode (.store a)) = 33 := opcField_encode _
  have operand : opndField (encode (.store a)) = a := opndField_encode _
  unfold CachesAs
  rw [hcfg, hline, operand, if_pos rfl, if_pos opcode]

/-- Settles O36: the STORE sets up `CachesAs`, and every later word keeps it. -/
theorem storedValueIsReadBack : Obligations.StoredValueIsReadBack := by
  intro a ws s u hws h
  obtain ⟨t, hstore, he, hrest⟩ := runWords_cons h
  obtain ⟨hcfg, _⟩ := line_of_completed_word hstore he
  have spared : ∀ w ∈ ws, SparesAddress t.cfg a w := hcfg ▸ hws
  exact (cachesAs_iff a s.ac u).1 (cachesAs_runWords (cachesAs_store hstore he) spared hrest)

end Sys2Proof.Proofs

namespace Sys2Proof.Proofs

open Sys2Proof Sys2Proof.Machine

/-! ### The quotient and the mask

The model's quotient is the signed division of `BitVec`, where the library knows that -2^31 by -1 is the
only quotient that does not fit. -/

theorem divT_eq_sdiv (n d : Word) : divT n d = n.sdiv d :=
  BitVec.eq_of_toInt_eq <|
    calc (divT n d).toInt
      _ = (n.toInt.tdiv d.toInt).bmod (2 ^ 32) := BitVec.toInt_ofInt _
      _ = (n.sdiv d).toInt := (BitVec.toInt_sdiv n d).symm

theorem toInt_eq_min_iff (w : Word) : w.toInt = -(2 ^ 31) ↔ w = BitVec.intMin 32 :=
  BitVec.toInt_inj (y := BitVec.intMin 32)

theorem toInt_eq_neg_one_iff (w : Word) : w.toInt = -1 ↔ w = -1#32 :=
  BitVec.toInt_inj (y := -1#32)

/-- Settles O56: the signed division of `BitVec` is exact but for the one pair that wraps. -/
theorem quotientRoundsTowardZero : Obligations.QuotientRoundsTowardZero := by
  intro n d _
  rw [divT_eq_sdiv, ne_eq, ne_eq, toInt_eq_min_iff, toInt_eq_neg_one_iff]
  refine ⟨fun fits => BitVec.toInt_sdiv_of_ne_or_ne n d fits, fun hn hd => ?_⟩
  rw [hn, hd, BitVec.intMin_sdiv_neg_one]
  rfl

theorem toNat_mask12 (w : Word) : (mask12 w).toNat = w.toNat % 4096 :=
  Nat.and_two_pow_sub_one_eq_mod w.toNat 12

/-- Settles O57: below 2^12 the sign bit is clear, so the signed reading is the unsigned one. -/
theorem maskKeepsTwelveBits : Obligations.MaskKeepsTwelveBits := by
  intro w
  have unsigned := toNat_mask12 w
  have signed : (mask12 w).toInt = (mask12 w).toNat :=
    BitVec.toInt_eq_toNat_of_lt (by omega)
  exact ⟨unsigned, by omega, by omega⟩

/-! ### Instructions that read a register

Their bodies check the register first. Where it may be read, what follows the check decides whether the
instruction completes or raises. -/

theorem reading_of_readable {rs : List Reg} {b : Body} {a : Operand} {v : Word} {s : State}
    (h : s.readable rs = true) : reading rs b a v s = b a v s := by
  simp [reading, h]

/-- The resolve writes no mark, so a register that may be read before it may be read after it. -/
theorem bodyOf_of_readable {m : Mnemonic} {r : Reg} {b : Body} {s : State}
    (hb : bodyOf m = reading [r] b)
    (hread : s.cfg.regInit = .zero ∨ s.written.get r = true) (a : Operand) (v : Word) :
    bodyOf m a v (s.resolve a) = b a v (s.resolve a) := by
  rw [hb]
  exact reading_of_readable (readable_singleton (s := s.resolve a) hread)

/-- R117: a body that raises on the resolved state keeps the resolve's effects and nothing else. -/
theorem exec_faults_of_body_error {i : Instr} {s : State} {f : FaultCause}
    (ha : i.operand.toNat < s.cfg.memWords)
    (raises : bodyOf i.mnemonic i.operand (s.view i.operand) (s.resolve i.operand) = .error f) :
    ∃ t, exec i s = .next t ∧ FaultsAfterResolve s i.operand f t := by
  refine ⟨_, ?_, faultsAfterResolve_raise s i.operand f⟩
  rw [exec_eq, s.runInstr_in _ _ ha, raises]

/-! ### ADD and SUBTRACT -/

/-- Settles O16: the body goes through where AC may be read, and raises where it may not. -/
theorem addAddsModuloWordSize : Obligations.AddAddsModuloWordSize := by
  have opcode : (opcodeOf .add).zeroExtend 32 <<< 24 = (0x05000000 : Word) := by decide
  refine ⟨fun a => encode_of_opcode (.add a) opcode, fun s a ha hread => ?_,
    fun s a ha => outOfRangeOperandRaises.1 (.add a) s ha, fun s a ha hu hac =>
    unwrittenReadRaises (.add a) s .ac ha hu (by simp [regsRead, Instr.mnemonic]) hac⟩
  have ok : bodyOf .add a (s.view a) (s.resolve a) =
      .ok ((s.resolve a).setAC (addW s.ac (s.view a))) :=
    bodyOf_of_readable (m := .add) (r := .ac) rfl hread a (s.view a)
  obtain ⟨runs, completes, filled, memory⟩ :=
    exec_completes_of_body_ok (i := .add a) nofun ha ok
  exact ⟨_, runs, completes, filled, memory, by simp [addW]⟩

/-- Settles O17: as for ADD, with the difference. -/
theorem subtractTakesTheValueFromAc : Obligations.SubtractTakesTheValueFromAc := by
  have opcode : (opcodeOf .subtract).zeroExtend 32 <<< 24 = (0x06000000 : Word) := by decide
  refine ⟨fun a => encode_of_opcode (.subtract a) opcode, fun s a ha hread => ?_,
    fun s a ha => outOfRangeOperandRaises.1 (.subtract a) s ha, fun s a ha hu hac =>
    unwrittenReadRaises (.subtract a) s .ac ha hu (by simp [regsRead, Instr.mnemonic]) hac⟩
  have ok : bodyOf .subtract a (s.view a) (s.resolve a) =
      .ok ((s.resolve a).setAC (subW s.ac (s.view a))) :=
    bodyOf_of_readable (m := .subtract) (r := .ac) rfl hread a (s.view a)
  obtain ⟨runs, completes, filled, memory⟩ :=
    exec_completes_of_body_ok (i := .subtract a) nofun ha ok
  exact ⟨_, runs, completes, filled, memory, by simp [subW]⟩

/-! ### MULTIPLY and DIVIDE

Both put their result in MQ and its low 12 bits in AC. -/

/-- Settles O18: the only register checked is MQ. -/
theorem multiplyMultipliesMq : Obligations.MultiplyMultipliesMq := by
  have opcode : (opcodeOf .multiply).zeroExtend 32 <<< 24 = (0x0B000000 : Word) := by decide
  refine ⟨fun a => encode_of_opcode (.multiply a) opcode, fun s a ha hread => ?_,
    fun s a ha => outOfRangeOperandRaises.1 (.multiply a) s ha, fun s a ha hu hmq =>
    unwrittenReadRaises (.multiply a) s .mq ha hu (by simp [regsRead, Instr.mnemonic]) hmq⟩
  have ok : bodyOf .multiply a (s.view a) (s.resolve a) =
      .ok (((s.resolve a).setMQ (mulW s.mq (s.view a))).setAC (mask12 (mulW s.mq (s.view a)))) :=
    bodyOf_of_readable (m := .multiply) (r := .mq) rfl hread a (s.view a)
  obtain ⟨runs, completes, filled, memory⟩ :=
    exec_completes_of_body_ok (i := .multiply a) nofun ha ok
  exact ⟨_, runs, completes, filled, memory, by simp [mask12, mulW]⟩

/-- R143: what DIVIDE does once AC may be read: the zero test stands before every write. -/
theorem bodyOf_divide_of_readable {s : State} (a : Operand) (v : Word)
    (hread : s.cfg.regInit = .zero ∨ s.written.ac = true) :
    bodyOf .divide a v (s.resolve a) =
      if v = 0 then .error .divideByZero
      else .ok (((s.resolve a).setMQ (divT s.ac v)).setAC (mask12 (divT s.ac v))) := by
  rw [bodyOf_of_readable (m := .divide) (r := .ac) rfl hread]
  exact if_congr (BitVec.toInt_inj (y := 0)) rfl rfl

/-- Settles O19: the register check, then the zero test, then the quotient. -/
theorem divideDividesAc : Obligations.DivideDividesAc := by
  have opcode : (opcodeOf .divide).zeroExtend 32 <<< 24 = (0x0C000000 : Word) := by decide
  refine ⟨fun a => encode_of_opcode (.divide a) opcode, fun s a ha hread hv => ?_,
    fun s a ha => outOfRangeOperandRaises.1 (.divide a) s ha, fun s a ha hu hac =>
    unwrittenReadRaises (.divide a) s .ac ha hu (by simp [regsRead, Instr.mnemonic]) hac,
    fun s a ha hread hv => ?_⟩
  · obtain ⟨runs, completes, filled, memory⟩ :=
      exec_completes_of_body_ok (i := .divide a) nofun ha
        ((bodyOf_divide_of_readable a (s.view a) hread).trans (if_neg hv))
    exact ⟨_, runs, completes, filled, memory, by simp [mask12, divT]⟩
  · exact exec_faults_of_body_error (i := .divide a) ha
      ((bodyOf_divide_of_readable a (s.view a) hread).trans (if_pos hv))

end Sys2Proof.Proofs

namespace Sys2Proof.Proofs

open Sys2Proof Sys2Proof.Machine

/-! ### The Numeric Codec

The codec computes in dyadic rationals. `Dyadic.toRat` is a ring homomorphism, so each of the codec's
functions has its value in ℚ, and the sum over the mantissa's bits becomes a finite sum there. -/

theorem toRat_pow2 (e : ℤ) : (pow2 e).toRat = (2 : ℚ) ^ e := by
  rw [pow2, Dyadic.toRat_ofIntWithPrec_eq_mul_two_pow, neg_neg, Int.cast_one, one_mul]

theorem toRat_mantBit (w : Word) (i : ℕ) :
    (mantBit w i).toRat = if w.getLsbD i then (2 : ℚ) ^ (-((i : ℤ) + 1)) else 0 := by
  rw [mantBit, apply_ite Dyadic.toRat, toRat_pow2, Dyadic.toRat_zero]

theorem toRat_foldl_add (f : ℕ → Dyadic) (n : ℕ) :
    ((List.range n).foldl (fun acc i => acc + f i) 0).toRat = ∑ i ∈ Finset.range n, (f i).toRat := by
  induction n with
  | zero => rfl
  | succ n ih => simp [List.range_succ, Finset.sum_range_succ, Dyadic.toRat_add, ih]

/-- R160: `mant(w)` as a sum in ℚ. -/
theorem toRat_mant (w : Word) :
    (mant w).toRat =
      ∑ i ∈ Finset.range 23, if w.getLsbD i then (2 : ℚ) ^ (-((i : ℤ) + 1)) else 0 := by
  simp only [mant, toRat_foldl_add, toRat_mantBit]

theorem toRat_codecValue (cfg : Config) (w : Word) :
    (codecValue cfg w).toRat = (1 + (mant w).toRat) * (2 : ℚ) ^ (codecExp cfg w - 127) := by
  have one : (1 : Dyadic).toRat = 1 := Dyadic.toRat_natCast 1
  rw [codecValue, Dyadic.toRat_mul, Dyadic.toRat_add, toRat_pow2, one]

theorem toRat_mant_nonneg (w : Word) : 0 ≤ (mant w).toRat := by
  rw [toRat_mant]
  refine Finset.sum_nonneg fun i _ => ?_
  split <;> positivity

/-- Settles O58: there is no sign, so the mantissa is not negative and the leading 1 keeps the value
above 0. -/
theorem codecValueFollowsTheFormula : Obligations.CodecValueFollowsTheFormula := by
  intro cfg w
  have value := toRat_codecValue cfg w
  have mantissa := toRat_mant_nonneg w
  refine ⟨by rw [value, toRat_mant], ?_, rfl⟩
  rw [value]
  positivity

/-! ### The mantissa's corner cases

The mantissa looks at the 23 low bits alone, so it is a function of the low part of the word's value. -/

/-- The mantissa whose bits are the 23 low bits of `n`. -/
def mantissaOf (n : ℕ) : ℚ :=
  ∑ i ∈ Finset.range 23, if n.testBit i then (2 : ℚ) ^ (-((i : ℤ) + 1)) else 0

/-- R161: bits 31:23 do not contribute. -/
theorem toRat_mant_eq_mantissaOf (w : Word) : (mant w).toRat = mantissaOf (w.toNat % 2 ^ 23) := by
  rw [toRat_mant, mantissaOf]
  refine Finset.sum_congr rfl fun i hi => ?_
  have low : (w.toNat % 2 ^ 23).testBit i = w.getLsbD i := by
    rw [Nat.testBit_mod_two_pow, decide_eq_true (Finset.mem_range.1 hi), Bool.true_and]
    rfl
  rw [low]

theorem mantissaOf_zero : mantissaOf 0 = 0 := by simp [mantissaOf]

/-- R160: bit `k` alone has the weight 2^-(k+1). -/
theorem mantissaOf_two_pow {k : ℕ} (hk : k < 23) :
    mantissaOf (2 ^ k) = (2 : ℚ) ^ (-((k : ℤ) + 1)) := by
  simp only [mantissaOf, Nat.testBit_two_pow, decide_eq_true_eq]
  rw [Finset.sum_ite_eq, if_pos (Finset.mem_range.2 hk)]

/-- The weights of the bits below `n` fall short of 1 by the last of them. -/
theorem sum_bit_weights (n : ℕ) :
    ∑ i ∈ Finset.range n, (2 : ℚ) ^ (-((i : ℤ) + 1)) = 1 - 1 / 2 ^ n := by
  induction n with
  | zero => simp
  | succ n ih =>
    have weight : (2 : ℚ) ^ (-((n : ℤ) + 1)) = 1 / 2 ^ (n + 1) := by
      rw [zpow_neg, one_div]
      norm_cast
    rw [Finset.sum_range_succ, ih, weight]
    ring

theorem mantissaOf_all_ones : mantissaOf (2 ^ 23 - 1) = 1 - 1 / 2 ^ 23 := by
  rw [← sum_bit_weights, mantissaOf]
  refine Finset.sum_congr rfl fun i hi => if_pos ?_
  rw [Nat.testBit_two_pow_sub_one, decide_eq_true (Finset.mem_range.1 hi)]

/-- Settles O59: the four values of `mantissaOf`, and that it is all the mantissa depends on. -/
theorem mantissaCornerCases : Obligations.MantissaCornerCases := by
  intro w
  have bit0 : mantissaOf 1 = 1 / 2 := (mantissaOf_two_pow (k := 0) (by decide)).trans (by norm_num)
  have bit22 : mantissaOf (2 ^ 22) = 1 / 2 ^ 23 :=
    (mantissaOf_two_pow (by decide)).trans (by norm_num)
  rw [toRat_mant_eq_mantissaOf]
  refine ⟨fun h => ?_, fun h => ?_, fun h => ?_, fun h => ?_, fun w' h => ?_⟩
  · rw [h, mantissaOf_zero]
  · rw [h, bit0]
  · rw [h, bit22]
  · rw [h, mantissaOf_all_ones]
  · rw [← Dyadic.toRat_inj, toRat_mant_eq_mantissaOf, toRat_mant_eq_mantissaOf, h]

/-! ### ADD_FLOAT and SUBTRACT_FLOAT

Both read AC and leave their result in floatAC alone. -/

/-- Settles O20: the body goes through where AC may be read, and raises where it may not. -/
theorem addFloatWritesFloatAc : Obligations.AddFloatWritesFloatAc := by
  have opcode : (opcodeOf .addFloat).zeroExtend 32 <<< 24 = (0x07000000 : Word) := by decide
  refine ⟨fun a => encode_of_opcode (.addFloat a) opcode, fun s a ha hread => ?_,
    fun s a ha => outOfRangeOperandRaises.1 (.addFloat a) s ha, fun s a ha hu hac =>
    unwrittenReadRaises (.addFloat a) s .ac ha hu (by simp [regsRead, Instr.mnemonic]) hac⟩
  have ok : bodyOf .addFloat a (s.view a) (s.resolve a) =
      .ok ((s.resolve a).deliverFloat
        (fadd s.cfg (decodeFloat s.cfg s.ac) (decodeFloat s.cfg (s.view a)))) :=
    bodyOf_of_readable (m := .addFloat) (r := .ac) rfl hread a (s.view a)
  obtain ⟨runs, completes, filled, memory⟩ :=
    exec_completes_of_body_ok (i := .addFloat a) nofun ha ok
  exact ⟨_, runs, completes, filled, memory, by simp⟩

/-- Settles O21: as for ADD_FLOAT, with the difference. -/
theorem subtractFloatWritesFloatAc : Obligations.SubtractFloatWritesFloatAc := by
  have opcode : (opcodeOf .subtractFloat).zeroExtend 32 <<< 24 = (0x08000000 : Word) := by decide
  refine ⟨fun a => encode_of_opcode (.subtractFloat a) opcode, fun s a ha hread => ?_,
    fun s a ha => outOfRangeOperandRaises.1 (.subtractFloat a) s ha, fun s a ha hu hac =>
    unwrittenReadRaises (.subtractFloat a) s .ac ha hu (by simp [regsRead, Instr.mnemonic]) hac⟩
  have ok : bodyOf .subtractFloat a (s.view a) (s.resolve a) =
      .ok ((s.resolve a).deliverFloat
        (fsub s.cfg (decodeFloat s.cfg s.ac) (decodeFloat s.cfg (s.view a)))) :=
    bodyOf_of_readable (m := .subtractFloat) (r := .ac) rfl hread a (s.view a)
  obtain ⟨runs, completes, filled, memory⟩ :=
    exec_completes_of_body_ok (i := .subtractFloat a) nofun ha ok
  exact ⟨_, runs, completes, filled, memory, by simp⟩

/-! ### MULTIPLY_FLOAT and DIVIDE_FLOAT

Both read AC and MQ, though neither uses the value of both, and leave their result in both floats. -/

/-- R165, R166: how both deliver a result. -/
def deliverBothFloats (s : State) (f : FloatVal) : State := (s.setFloatMQ f).deliverFloat f

/-- `bodyOf_of_readable` for the two instructions that check AC and MQ. -/
theorem bodyOf_of_readable_ac_mq {m : Mnemonic} {b : Body} {s : State}
    (hb : bodyOf m = reading [.ac, .mq] b)
    (hread : s.cfg.regInit = .zero ∨ (s.written.ac = true ∧ s.written.mq = true))
    (a : Operand) (v : Word) : bodyOf m a v (s.resolve a) = b a v (s.resolve a) := by
  have readable : (s.resolve a).readable [.ac, .mq] = true :=
    (State.readable_iff _ _).2 (by simpa [Written.get] using hread)
  rw [hb, reading_of_readable readable]

/-- R205: one of AC and MQ without its mark is enough. -/
theorem exec_faults_of_ac_or_mq_unwritten {i : Instr} {s : State}
    (reads : regsRead i.mnemonic = [.ac, .mq]) (ha : i.operand.toNat < s.cfg.memWords)
    (hu : s.cfg.regInit = .unwritten) (h : s.written.ac = false ∨ s.written.mq = false) :
    ∃ t, exec i s = .next t ∧ FaultsAfterResolve s i.operand .unwrittenRead t := by
  rcases h with hac | hmq
  · exact unwrittenReadRaises i s .ac ha hu (by simp [reads]) hac
  · exact unwrittenReadRaises i s .mq ha hu (by simp [reads]) hmq

/-- Settles O22: the body goes through where AC and MQ may be read, and raises where one may not. -/
theorem multiplyFloatWritesBothFloats : Obligations.MultiplyFloatWritesBothFloats := by
  have opcode : (opcodeOf .multiplyFloat).zeroExtend 32 <<< 24 = (0x0D000000 : Word) := by decide
  refine ⟨fun a => encode_of_opcode (.multiplyFloat a) opcode, fun s a ha hread => ?_,
    fun s a ha => outOfRangeOperandRaises.1 (.multiplyFloat a) s ha,
    fun s a ha => exec_faults_of_ac_or_mq_unwritten (i := .multiplyFloat a) rfl ha⟩
  have ok : bodyOf .multiplyFloat a (s.view a) (s.resolve a) =
      .ok (deliverBothFloats (s.resolve a)
        (fmul s.cfg (decodeFloat s.cfg s.mq) (decodeFloat s.cfg (s.view a)))) :=
    bodyOf_of_readable_ac_mq (m := .multiplyFloat) rfl hread a (s.view a)
  obtain ⟨runs, completes, filled, memory⟩ :=
    exec_completes_of_body_ok (i := .multiplyFloat a) nofun ha ok
  exact ⟨_, runs, completes, filled, memory, by simp [deliverBothFloats]⟩

/-- R166: what DIVIDE_FLOAT does once AC and MQ may be read: the zero test is on the raw Word and
stands before every write. -/
theorem bodyOf_divideFloat_of_readable {s : State} (a : Operand) (v : Word)
    (hread : s.cfg.regInit = .zero ∨ (s.written.ac = true ∧ s.written.mq = true)) :
    bodyOf .divideFloat a v (s.resolve a) =
      if v = 0 then .error .divideByZero
      else .ok (deliverBothFloats (s.resolve a)
        (fdiv s.cfg (decodeFloat s.cfg s.ac) (decodeFloat s.cfg v))) := by
  rw [bodyOf_of_readable_ac_mq (m := .divideFloat) rfl hread]
  exact if_congr (BitVec.toInt_inj (y := 0)) rfl rfl

/-- Settles O23: the register check, then the zero test, then the quotient. -/
theorem divideFloatWritesBothFloats : Obligations.DivideFloatWritesBothFloats := by
  have opcode : (opcodeOf .divideFloat).zeroExtend 32 <<< 24 = (0x0E000000 : Word) := by decide
  refine ⟨fun a => encode_of_opcode (.divideFloat a) opcode, fun s a ha hread hv => ?_,
    fun s a ha => outOfRangeOperandRaises.1 (.divideFloat a) s ha,
    fun s a ha => exec_faults_of_ac_or_mq_unwritten (i := .divideFloat a) rfl ha,
    fun s a ha hread hv => ?_⟩
  · obtain ⟨runs, completes, filled, memory⟩ :=
      exec_completes_of_body_ok (i := .divideFloat a) nofun ha
        ((bodyOf_divideFloat_of_readable a (s.view a) hread).trans (if_neg hv))
    exact ⟨_, runs, completes, filled, memory, by simp [deliverBothFloats]⟩
  · exact exec_faults_of_body_error (i := .divideFloat a) ha
      ((bodyOf_divideFloat_of_readable a (s.view a) hread).trans (if_pos hv))

end Sys2Proof.Proofs

namespace Sys2Proof.Proofs

open Sys2Proof Sys2Proof.Machine

/-! ### What a body appends to OUT -/

/-- R184: wherever the body goes through, it appends `n` events to OUT. -/
def Appends (n : Nat) (b : Body) : Prop :=
  ∀ a v s t, b a v s = .ok t → ∃ es, t.out = s.out ++ es ∧ es.length = n

theorem Appends.none_of_out_eq {f : Operand → Word → State → State}
    (same : ∀ a v s, (f a v s).out = s.out) : Appends 0 fun a v s => .ok (f a v s) := by
  rintro a v s _ ⟨⟩
  exact ⟨[], by simp [same], rfl⟩

theorem Appends.one_of_out_eq {f : Operand → Word → State → State}
    {e : Operand → Word → State → Event}
    (grown : ∀ a v s, (f a v s).out = s.out ++ [e a v s]) :
    Appends 1 fun a v s => .ok (f a v s) := by
  rintro a v s _ ⟨⟩
  exact ⟨[e a v s], grown a v s, rfl⟩

theorem Appends.reading {n : Nat} {b : Body} (h : Appends n b) (rs : List Reg) :
    Appends n (reading rs b) :=
  fun a v s t ok => h a v s t (reading_ok ok).2

/-- A zero test that raises appends nothing, and what follows it appends what it did. -/
theorem Appends.unlessZero {n : Nat} {b : Body} (h : Appends n b) (f : FaultCause) :
    Appends n fun a v s => if v.toInt = 0 then .error f else b a v s := by
  intro a v s t ok
  dsimp only at ok
  split at ok
  · cases ok
  · exact h a v s t ok

/-- R35: the instructions that have an event. -/
def emitting : List Mnemonic :=
  [.print, .addFloat, .subtractFloat, .multiplyFloat, .divideFloat, .loadIo, .storeIo]

/-- R184: the event column of the table, body by body. -/
theorem bodyOf_appends (m : Mnemonic) :
    Appends (if m ∈ emitting then 1 else 0) (bodyOf m) := by
  cases m with
  | load | loadMq => exact .none_of_out_eq fun _ _ _ => rfl
  | mqToAc | add | subtract | multiply => exact .reading (.none_of_out_eq fun _ _ _ => by rfl) _
  | store =>
    exact .reading (.none_of_out_eq fun a _ s => s.storeThrough_out a s.ac s.hit) _
  | divide => exact .reading (.unlessZero (.none_of_out_eq fun _ _ _ => by rfl) _) _
  | print => exact .one_of_out_eq fun _ _ _ => rfl
  | addFloat | subtractFloat | multiplyFloat | loadIo | storeIo =>
    exact .reading (.one_of_out_eq fun _ _ _ => rfl) _
  | divideFloat => exact .reading (.unlessZero (.one_of_out_eq fun _ _ _ => rfl) _) _

/-- Settles O33: a fault appends nothing, and an instruction that retires what its body does. -/
theorem outGrowsByTheEventsOfTheTable : Obligations.OutGrowsByTheEventsOfTheTable := by
  intro i s t h
  rw [exec_eq] at h
  cases h
  rcases s.runInstr_cases i.operand (bodyOf i.mnemonic) with
    ⟨_, out⟩ | ⟨_, u, ok, retires⟩ | ⟨_, f, _, raises⟩
  · rw [out]
    exact ⟨[], by simp⟩
  · obtain ⟨es, grown, count⟩ := bodyOf_appends i.mnemonic _ _ _ _ ok
    rw [retires]
    exact ⟨es, grown, count.trans (if_congr (by simp [emitting]) rfl rfl)⟩
  · rw [raises]
    exact ⟨[], by simp⟩

/-! ### PRINT -/

/-- Settles O24: PRINT's body reads no register, so in range it always goes through. -/
theorem printEmitsTheView : Obligations.PrintEmitsTheView := by
  have opcode : (opcodeOf .print).zeroExtend 32 <<< 24 = (0x04000000 : Word) := by decide
  refine ⟨fun a => encode_of_opcode (.print a) opcode, fun s a ha => ?_,
    fun s a ha => outOfRangeOperandRaises.1 (.print a) s ha⟩
  have ok : bodyOf .print a (s.view a) (s.resolve a) =
      .ok ((s.resolve a).emit (.int (s.view a))) := rfl
  obtain ⟨runs, completes, filled, memory⟩ :=
    exec_completes_of_body_ok (i := .print a) nofun ha ok
  exact ⟨_, runs, completes, filled, memory, by simp⟩

/-! ### LOAD_IO and STORE_IO

Each is one exchange of AC with the two I/O registers, made in IO_XFER after a check of the two registers
it reads. -/

/-- R181: the exchange of LOAD_IO. -/
def loadIoExchange (s : State) : State :=
  ((s.setIOtemp s.ac).setAC s.ioRegister).emit (.io s.ioRegister)

/-- R182: the exchange of STORE_IO. -/
def storeIoExchange (s : State) : State :=
  ((s.setIORegister s.ac).setAC s.ioTemp).emit (.io s.ac)

theorem bodyOf_loadIo :
    bodyOf .loadIo = reading [.ac, .ioRegister] fun _ _ s => .ok (loadIoExchange s) := rfl

theorem bodyOf_storeIo :
    bodyOf .storeIo = reading [.ac, .ioTemp] fun _ _ s => .ok (storeIoExchange s) := rfl

/-- `bodyOf_of_readable` for two registers. -/
theorem bodyOf_of_readable_pair {m : Mnemonic} {p q : Reg} {b : Body} {s : State}
    (hb : bodyOf m = reading [p, q] b)
    (hread : s.cfg.regInit = .zero ∨ (s.written.get p = true ∧ s.written.get q = true))
    (a : Operand) (v : Word) : bodyOf m a v (s.resolve a) = b a v (s.resolve a) := by
  have readable : (s.resolve a).readable [p, q] = true :=
    (State.readable_iff _ _).2 (by simpa using hread)
  rw [hb, reading_of_readable readable]

/-- R205: one of two registers without its mark is enough. -/
theorem exec_faults_of_pair_unwritten {i : Instr} {p q : Reg} {s : State}
    (reads : regsRead i.mnemonic = [p, q]) (ha : i.operand.toNat < s.cfg.memWords)
    (hu : s.cfg.regInit = .unwritten) (h : s.written.get p = false ∨ s.written.get q = false) :
    ∃ t, exec i s = .next t ∧ FaultsAfterResolve s i.operand .unwrittenRead t := by
  rcases h with hp | hq
  · exact unwrittenReadRaises i s p ha hu (by simp [reads]) hp
  · exact unwrittenReadRaises i s q ha hu (by simp [reads]) hq

/-- R115: for the two I/O opcodes EXECUTE only enters IO_XFER. -/
theorem tick_execute_of_io {s : State} (he : s.engState = .execute)
    (hio : s.opc = 2 ∨ s.opc = 3) : tick s = some { s with engState := .ioXfer } := by
  rw [tick_execute he, State.tickExecute, if_pos ((isIoOpcode_iff _).2 hio)]

/-- Settles O25: the exchange is made where AC and IORegister may be read, and raises where one may
not. -/
theorem loadIoExchangesAc : Obligations.LoadIoExchangesAc := by
  have opcode : (opcodeOf .loadIo).zeroExtend 32 <<< 24 = (0x02000000 : Word) := by decide
  refine ⟨fun a => encode_of_opcode (.loadIo a) opcode,
    fun s he ho => tick_execute_of_io he (.inl ho), fun s a ha hread => ?_,
    fun s a ha => outOfRangeOperandRaises.1 (.loadIo a) s ha,
    fun s a ha =>
      exec_faults_of_pair_unwritten (i := .loadIo a) (p := .ac) (q := .ioRegister) rfl ha⟩
  have ok : bodyOf .loadIo a (s.view a) (s.resolve a) = .ok (loadIoExchange (s.resolve a)) :=
    bodyOf_of_readable_pair bodyOf_loadIo hread a (s.view a)
  obtain ⟨runs, completes, filled, memory⟩ :=
    exec_completes_of_body_ok (i := .loadIo a) nofun ha ok
  exact ⟨_, runs, completes, filled, memory, by simp [loadIoExchange]⟩

/-- Settles O26: as for LOAD_IO, with IOtemp in the place of IORegister. -/
theorem storeIoExchangesAc : Obligations.StoreIoExchangesAc := by
  have opcode : (opcodeOf .storeIo).zeroExtend 32 <<< 24 = (0x03000000 : Word) := by decide
  refine ⟨fun a => encode_of_opcode (.storeIo a) opcode,
    fun s he ho => tick_execute_of_io he (.inr ho), fun s a ha hread => ?_,
    fun s a ha => outOfRangeOperandRaises.1 (.storeIo a) s ha,
    fun s a ha => exec_faults_of_pair_unwritten (i := .storeIo a) (p := .ac) (q := .ioTemp) rfl ha⟩
  have ok : bodyOf .storeIo a (s.view a) (s.resolve a) = .ok (storeIoExchange (s.resolve a)) :=
    bodyOf_of_readable_pair bodyOf_storeIo hread a (s.view a)
  obtain ⟨runs, completes, filled, memory⟩ :=
    exec_completes_of_body_ok (i := .storeIo a) nofun ha ok
  exact ⟨_, runs, completes, filled, memory, by simp [storeIoExchange]⟩

/-! ### Two exchanges in a row -/

/-- An instruction that completes and whose body is a register check and then `f` has done `f`. -/
theorem completed_of_reading {i : Instr} {rs : List Reg} {f : State → State} {s t : State}
    (hb : bodyOf i.mnemonic = reading rs fun _ _ s => .ok (f s)) (h : exec i s = .next t)
    (he : t.engState = .fetch) : t = (f (s.resolve i.operand)).retire := by
  obtain ⟨_, u, ok, rfl⟩ := completed_body h he
  rw [hb] at ok
  obtain ⟨_, exchanged⟩ := reading_ok ok
  cases exchanged
  rfl

/-- R119: two such instructions in a row, which complete, are the one and then the other. -/
theorem execAll_pair_of_reading {i j : Instr} {rs qs : List Reg} {f g : State → State} {s u : State}
    (hi : bodyOf i.mnemonic = reading rs fun _ _ s => .ok (f s))
    (hj : bodyOf j.mnemonic = reading qs fun _ _ s => .ok (g s))
    (h : execAll [i, j] s = some u) :
    u = (g ((f (s.resolve i.operand)).retire.resolve j.operand)).retire := by
  obtain ⟨t, first, completes, rest⟩ := execAll_cons h
  obtain ⟨u', second, completes', done⟩ := execAll_cons rest
  cases done
  cases completed_of_reading hi first completes
  exact completed_of_reading hj second completes'

/-- Settles O39: the second exchange reads what the first left, and the resolves touch neither the
registers nor OUT. -/
theorem ioExchangesUndoEachOther : Obligations.IoExchangesUndoEachOther := by
  intro a b s u
  refine ⟨fun h => ?_, fun h => ?_⟩
  · rw [execAll_pair_of_reading (i := .loadIo a) (j := .storeIo b) bodyOf_loadIo bodyOf_storeIo h]
    simp [loadIoExchange, storeIoExchange]
  · rw [execAll_pair_of_reading (i := .storeIo a) (j := .loadIo b) bodyOf_storeIo bodyOf_loadIo h]
    simp [loadIoExchange, storeIoExchange]

end Sys2Proof.Proofs

namespace Sys2Proof.Proofs

open Sys2Proof Sys2Proof.Machine

/-! ### The cause an instruction records

The causes come (R207) in the order of the cycle: RESOLVE's range check, then the body's register
check, then the zero test of a division. -/

/-- R202, R203, R205: how an instruction can leave FAULT, and on which state. -/
theorem exec_fault_cases {i : Instr} {s t : State} (h : exec i s = .next t) :
    t.fault = s.fault ∨ t.fault = some .addressOutOfRange ∨
      (i.operand.toNat < s.cfg.memWords ∧
        ((s.readable (regsRead i.mnemonic) = false ∧ t.fault = some .unwrittenRead) ∨
          (s.readable (regsRead i.mnemonic) = true ∧ divides i.mnemonic = true ∧
            s.view i.operand = 0 ∧ FaultsAfterResolve s i.operand .divideByZero t))) := by
  rw [exec_eq] at h
  cases h
  rcases s.runInstr_cases i.operand (bodyOf i.mnemonic) with
    ⟨_, out⟩ | ⟨_, u, ok, retires⟩ | ⟨inside, f, error, raises⟩
  · rw [out]
    exact .inr (.inl rfl)
  · rw [retires]
    exact .inl (body_keeps ok).fault
  · rw [raises]
    rcases body_error error with ⟨unreadable, rfl⟩ | ⟨readable, division, zero, rfl⟩
    · exact .inr (.inr ⟨inside, .inl ⟨unreadable, rfl⟩⟩)
    · exact .inr (.inr ⟨inside, .inr ⟨readable, division, zero, faultsAfterResolve_raise s _ _⟩⟩)

/-- Settles O28: under Zero the register check, the one source of the cause, always goes through. -/
theorem zeroInitNeverRaisesUnwrittenRead : Obligations.ZeroInitNeverRaisesUnwrittenRead := by
  intro i s t hz hs h
  have readable : s.readable (regsRead i.mnemonic) = true := (s.readable_iff _).2 (.inl hz)
  rcases exec_fault_cases h with kept | out | ⟨_, ⟨unreadable, _⟩ | ⟨_, _, _, faults⟩⟩
  · rwa [kept]
  · simp [out]
  · exact absurd (readable.symm.trans unreadable) nofun
  · simp [faults.fault]

/-- Settles O29: of the ways to leave FAULT, the last alone leaves DIVIDE_BY_ZERO where none was. -/
theorem divideByZeroHasOneCause : Obligations.DivideByZeroHasOneCause := by
  intro i s t hs h ht
  rcases exec_fault_cases h with
    kept | out | ⟨inside, ⟨_, unwritten⟩ | ⟨readable, division, zero, faults⟩⟩
  · simp [kept, hs] at ht
  · simp [out] at ht
  · simp [unwritten] at ht
  · exact ⟨division, zero, inside, readable, faults⟩

/-! ### The first cause of a word -/

/-- R207: the first cause in cycle order that a word has on a state. Whether an unassigned opcode is
raised is the policy's affair, so this is what FAULT holds where the word does fault. -/
def firstCause (s : State) (w : Word) : Option FaultCause :=
  if s.cfg.memWords ≤ (opndField w).toNat then some .addressOutOfRange
  else match decode w with
    | .error _ => some .illegalOpcode
    | .ok i =>
      if s.readable (regsRead i.mnemonic) = false then some .unwrittenRead
      else if divides i.mnemonic = true ∧ s.view (opndField w) = 0 then some .divideByZero
      else none

theorem firstCause_of_out {s : State} {w : Word} (h : s.cfg.memWords ≤ (opndField w).toNat) :
    firstCause s w = some .addressOutOfRange := if_pos h

theorem firstCause_of_unassigned {s : State} {w : Word} {e : DecodeError}
    (h : (opndField w).toNat < s.cfg.memWords) (hd : decode w = .error e) :
    firstCause s w = some .illegalOpcode := by
  rw [firstCause, if_neg h.not_ge, hd]

theorem firstCause_of_unreadable {s : State} {w : Word} {i : Instr}
    (h : (opndField w).toNat < s.cfg.memWords) (hd : decode w = .ok i)
    (hr : s.readable (regsRead i.mnemonic) = false) :
    firstCause s w = some .unwrittenRead := by
  simp only [firstCause, if_neg h.not_ge, hd, hr, if_true]

theorem firstCause_of_readable {s : State} {w : Word} {i : Instr}
    (h : (opndField w).toNat < s.cfg.memWords) (hd : decode w = .ok i)
    (hr : s.readable (regsRead i.mnemonic) = true) :
    firstCause s w =
      if divides i.mnemonic = true ∧ s.view (opndField w) = 0 then some .divideByZero else none := by
  simp [firstCause, h.not_ge, hd, hr]

/-- R36, R207: the code of the first cause tells which cause it is, and on what grounds. -/
theorem faultCode_firstCause_iff (s : State) (w : Word) :
    (faultCode (firstCause s w) = 2 ↔ s.cfg.memWords ≤ (opndField w).toNat) ∧
    (faultCode (firstCause s w) = 3 ↔ (opndField w).toNat < s.cfg.memWords ∧
      decode w = .error (.unassignedOpcode (opcField w))) ∧
    (faultCode (firstCause s w) = 4 ↔ (opndField w).toNat < s.cfg.memWords ∧
      ∃ i, decode w = .ok i ∧ s.readable (regsRead i.mnemonic) = false) ∧
    (faultCode (firstCause s w) = 1 ↔ (opndField w).toNat < s.cfg.memWords ∧
      ∃ i, decode w = .ok i ∧ s.readable (regsRead i.mnemonic) = true ∧
        divides i.mnemonic = true ∧ s.view (opndField w) = 0) := by
  by_cases out : s.cfg.memWords ≤ (opndField w).toNat
  · simp [firstCause_of_out out, faultCode, out]
  · have inside : (opndField w).toNat < s.cfg.memWords := not_le.1 out
    cases hd : decode w with
    | error e =>
      obtain ⟨o⟩ := e
      obtain ⟨_, rfl⟩ := (decode_eq_unassigned_iff w o).1 hd
      simp [firstCause_of_unassigned inside hd, faultCode, inside]
    | ok i =>
      cases hr : s.readable (regsRead i.mnemonic) with
      | false => simp [firstCause_of_unreadable inside hd hr, faultCode, inside, hr]
      | true =>
        rw [firstCause_of_readable inside hd hr]
        split
        · next division => simp [faultCode, inside, hr, division]
        · next no_division => simpa [faultCode, inside, hr] using no_division

/-! ### What a word that faults leaves -/

/-- R114 to R117: a whole instruction that faults has raised in RESOLVE, or in its body after it. -/
theorem runInstr_faulted {s : State} {a : Operand} {b : Body}
    (h : (s.runInstr a b).engState = .faulted) :
    (s.cfg.memWords ≤ a.toNat ∧ s.runInstr a b = s.raise .addressOutOfRange) ∨
      (a.toNat < s.cfg.memWords ∧ ∃ f, b a (s.view a) (s.resolve a) = .error f ∧
        s.runInstr a b = (s.resolve a).raise f) := by
  rcases s.runInstr_cases a b with out | ⟨_, u, _, retires⟩ | raises
  · exact .inl out
  · simp [retires] at h
  · exact .inr raises

/-- R96, R202, R205: a cause that the body of a word raises on the resolved state is the first one the
word has on the state before. -/
theorem firstCause_of_body_error {s : State} {w : Word} {f : FaultCause}
    (inside : (opndField w).toNat < s.cfg.memWords)
    (h : bodyOfOpcode (opcField w) (opndField w) (s.view (opndField w))
      (s.resolve (opndField w)) = .error f) : firstCause s w = some f := by
  rcases bodyOfOpcode_error h with ⟨unassigned, _, rfl⟩ | ⟨m, assigned, causes⟩
  · exact firstCause_of_unassigned inside ((decode_eq_unassigned_iff w _).2 ⟨unassigned, rfl⟩)
  · have decodes : decode w = .ok (Instr.ofMnemonic m (opndField w)) :=
      (decode_eq_ok_iff w _).2 (by simpa using ((mnemonicOf?_eq_some_iff _ _).1 assigned).symm)
    rcases causes with ⟨unreadable, rfl⟩ | ⟨readable, division, zero, rfl⟩
    · exact firstCause_of_unreadable inside decodes (by rwa [mnemonic_ofMnemonic])
    · rw [firstCause_of_readable inside decodes (by rwa [mnemonic_ofMnemonic]),
        mnemonic_ofMnemonic, if_pos ⟨division, zero⟩]

/-- R117, R206, R208: a fault keeps PC, the latches, and the resolve's result where there was one. -/
structure RecordsWord (s : State) (w : Word) (t : State) : Prop where
  pc : t.pc = s.pc
  ir : t.ir = w
  opc : t.opc = opcField w
  opnd : t.opnd = opndField w
  resolved : (opndField w).toNat < s.cfg.memWords →
    t.hit = s.hitsAt (opndField w) ∧ t.slot = (opndField w).toNat % s.cfg.cacheLines

/-- R206, R207: a faulting word leaves its record, and its first cause in FAULT. -/
theorem step_faulted {s t : State} {w : Word} (he : s.engState = .fetch)
    (hw : s.fetchWord? = some w) (h : step s = .next t) (ht : t.engState = .faulted) :
    RecordsWord s w t ∧ t.fault.isSome = true ∧ t.fault = firstCause s w := by
  rw [step_of_word he hw] at h
  cases h
  rcases runInstr_faulted ht with ⟨out, raises⟩ | ⟨inside, f, error, raises⟩
  · rw [raises]
    exact ⟨⟨rfl, rfl, rfl, rfl, fun inside => absurd inside (not_lt.2 out)⟩, rfl,
      (firstCause_of_out out).symm⟩
  · have cause : firstCause (s.latch w) w = some f := firstCause_of_body_error inside error
    rw [raises]
    exact ⟨⟨rfl, rfl, rfl, rfl, fun _ => ⟨rfl, rfl⟩⟩, rfl, cause.symm⟩

/-- Settles O46: the host reads the code of the first cause. -/
theorem faultRecordsTheInstruction : Obligations.FaultRecordsTheInstruction := by
  intro s t w he hw h ht
  obtain ⟨record, recorded, cause⟩ := step_faulted he hw h ht
  have reported : t.report.faultCode = faultCode (firstCause s w) := congrArg faultCode cause
  rw [reported]
  exact ⟨recorded, congrArg EngState.code ht, record.pc, record.ir, record.opc, record.opnd,
    record.resolved, faultCode_firstCause_iff s w⟩

/-! ### Counting the instructions of a run

Every word that retires has resolved once, and its body leaves the counters alone. A run that halts
consists of such words, so the counters grow by one a word. -/

/-- R30, R31: below its width a counter counts exactly. -/
theorem countUp_of_lt {cfg : Config} {n : Nat} (h : n + 1 < 2 ^ cfg.counterWidth) :
    countUp cfg n = n + 1 := Nat.mod_eq_of_lt h

/-- R61, R62: a resolve counts once, as a hit or as a miss. -/
theorem resolve_counts_one {s : State} (h : s.hits + s.misses + 1 < 2 ^ s.cfg.counterWidth)
    (a : Operand) :
    (s.resolve a).hits + (s.resolve a).misses = s.hits + s.misses + 1 := by
  rw [State.resolve_hits, State.resolve_misses]
  split <;> rw [countUp_of_lt (by omega)] <;> omega

theorem bodyOfOpcode_counters {o : Opcode} {a : Operand} {v : Word} {s t : State}
    (h : bodyOfOpcode o a v s = .ok t) : t.hits = s.hits ∧ t.misses = s.misses := by
  rcases bodyOfOpcode_ok h with rfl | ⟨m, hm⟩
  · exact ⟨rfl, rfl⟩
  · exact ⟨(body_keeps hm).hits, (body_keeps hm).misses⟩

/-- R221: a word that retires counts once, unassigned opcodes too. -/
theorem completed_word_counts_one {w : Word} {s t : State} (h : runWord w s = .next t)
    (he : t.engState = .fetch) (room : s.hits + s.misses + 1 < 2 ^ s.cfg.counterWidth) :
    t.hits + t.misses = s.hits + s.misses + 1 := by
  obtain ⟨u, ok, rfl⟩ := completed_word h he
  obtain ⟨hits, misses⟩ := bodyOfOpcode_counters ok
  calc u.hits + u.misses
    _ = (s.resolve (opndField w)).hits + (s.resolve (opndField w)).misses := by rw [hits, misses]
    _ = s.hits + s.misses + 1 := resolve_counts_one room _

/-- R120: a run from a state without a step goes nowhere. -/
theorem run_of_stuck {s t : State} {r : Fault} (stuck : step s = .fault r) {n : Nat}
    (h : Host.Core.run Sys2Proof.core n s = .next t) : t = s := by
  cases n with
  | zero => exact (Host.Outcome.next.inj h).symm
  | succ n =>
    have core_step : Sys2Proof.core.step s = .fault r := stuck
    simp only [Host.Core.run, core_step] at h
    cases h

/-- R221: in a run that ends in HALTED every word retires, since one that faults would end the run in
FAULTED. -/
theorem halted_run_of_word {n : Nat} {s t : State} {w : Word} (he : s.engState = .fetch)
    (hw : s.fetchWord? = some w) (h : Host.Core.run Sys2Proof.core (n + 1) s = .next t)
    (ht : t.engState = .halted) :
    ∃ u, runWord w (s.latch w) = .next u ∧ u.engState = .fetch ∧ u.pc = s.pc + 1 ∧
      SameProgram s u ∧ Host.Core.run Sys2Proof.core n u = .next t := by
  rw [run_succ (step_of_word he hw)] at h
  rcases runInstr_retiresOrFaults (s.latch w) (opndField w) (opcField w) with
    ⟨retired, further, _⟩ | ⟨faulted, _⟩
  · exact ⟨_, runWord_eq w _, retired, further, sameProgram_runInstr (s.latch w) _ _, h⟩
  · have stays := run_of_stuck ((terminalStatesAreStuck _).2 faulted).2 h
    simp [stays, faulted] at ht

/-- Settles O35: by induction on the steps of the run, each of which but the last retires a word. -/
theorem haltedRunCountsEveryInstruction : Obligations.HaltedRunCountsEveryInstruction := by
  intro n s t he hp _ room h ht
  induction n generalizing s with
  | zero =>
    cases h
    simp [he] at ht
  | succ n ih =>
    cases hw : s.fetchWord? with
    | none =>
      have exhausted : s.prog.length ≤ s.pc.toNat := List.getElem?_eq_none_iff.1 hw
      rw [run_succ (step_halt he hw)] at h
      obtain rfl := run_of_stuck ((terminalStatesAreStuck s.halt).1 rfl).2 h
      simp [Nat.sub_eq_zero_of_le exhausted]
    | some w =>
      have hpc := pc_lt_of_fetchWord hw
      obtain ⟨u, runs, retired, further, ⟨hprog, hcfg⟩, rest⟩ := halted_run_of_word he hw h ht
      have counted : u.hits + u.misses = s.hits + s.misses + 1 :=
        completed_word_counts_one (s := s.latch w) runs retired (by simp; omega)
      have next_pc : u.pc.toNat = s.pc.toNat + 1 := by rw [further, pc_succ_toNat hp hpc]
      have total := ih u retired (hprog ▸ hp) (by rw [hprog, next_pc]; omega)
        (by rw [hprog, hcfg, next_pc, counted]; omega) rest
      rw [total, hprog, next_pc, counted]
      omega

/-! ### The memory dump -/

/-- Settles O54: the dump is one read of MEM for each index. -/
theorem memoryDumpSkipsAddressZero : Obligations.MemoryDumpSkipsAddressZero := by
  refine fun s => ⟨?_, fun i h => ?_⟩
  · rw [State.memoryDump, List.length_map, List.length_range]
  · simp only [State.memoryDump, List.getElem_map, List.getElem_range]

end Sys2Proof.Proofs

namespace Sys2Proof.Proofs

open Sys2Proof Sys2Proof.Machine

/-! ### Launches

A launched block stands at FETCH with an empty cache, zero counters and no fault, so all that its
invariant asks is that the configuration, the program and the memory image it was given are fit. -/

/-- R28: a launched block has no line. -/
theorem launch_line (cfg : Config) (m : Memory) (p : List Word) (k : Nat) :
    (State.launch cfg m p).line k = Line.empty := rfl

theorem launch_storageInv {cfg : Config} {m : Memory} {p : List Word} (hcfg : cfg.wellFormed = true)
    (hp : progWellFormed p = true) (hm : Memory.wf m = true)
    (hbelow : Cells.below cfg.memWords m = true) : StorageInv (State.launch cfg m p) where
  cfg := hcfg
  prog := hp
  memWf := hm
  memBelow := hbelow
  clWf := CacheArray.wf_nil
  clBelow := rfl
  tagSlot := by simp [launch_line, Line.empty]
  tagRange := by simp [launch_line, Line.empty]
  hits := Nat.two_pow_pos _
  misses := Nat.two_pow_pos _
  slot := (Nat.zero_le _).trans_lt (slotOf_lt hcfg 0)
  written := fun _ => rfl

theorem launch_inv {cfg : Config} {m : Memory} {p : List Word} (hcfg : cfg.wellFormed = true)
    (hp : progWellFormed p = true) (hm : Memory.wf m = true)
    (hbelow : Cells.below cfg.memWords m = true) : (State.launch cfg m p).Inv :=
  { launch_storageInv hcfg hp hm hbelow with
    pc := Nat.zero_le _
    fault := rfl
    halted := by simp [State.launch]
    fetched := by simp [State.launch, State.atBoundary]
    decoded := by simp [State.launch]
    resolved := by simp [State.launch]
    ioXfer := by simp [State.launch] }

/-- R98: the Words of a feed are as many as its values. -/
theorem feedWords_length {l : List Int} {ws : List Word} (h : feedWords l = some ws) :
    ws.length = l.length := by
  rw [← (feedWords_some h).1, List.length_map]

/-- Settles O51: the image a feed makes is canonical, and it lists no address past the feed. -/
theorem launchHasTheInvariant : Obligations.LaunchHasTheInvariant := by
  intro cfg memFeed progFeed s h
  obtain ⟨m, p, hcfg, hlen, hm, _, hp, rfl⟩ := launchFeeds_ok h
  have fits : 0 + m.length ≤ cfg.memWords := by rw [feedWords_length hm]; omega
  exact launch_inv hcfg hp (memoryOf_wf m) (memoryOf_below m 0 _ fits)

/-- Settles O50: `State.reset` is a launch by definition, with the empty image and the empty program. -/
theorem resetHasTheInvariant : Obligations.ResetHasTheInvariant :=
  ⟨launch_inv (by decide) rfl Memory.wf_nil rfl, rfl⟩

/-- Settles O52: each value is a field of the launched state, and MEM is the image itself. -/
theorem launchGivesTheResetValues : Obligations.LaunchGivesTheResetValues := by
  intro cfg m p
  refine ⟨rfl, rfl, rfl, launch_line cfg m p, fun _ => rfl, rfl, rfl, fun _ r => ?contents,
    fun r => ?unmarked, rfl, rfl, rfl, rfl, rfl, rfl, rfl, rfl⟩
  case contents => cases r <;> rfl
  case unmarked => cases r <;> rfl

theorem feedWellFormed_iff (n : Int) :
    feedWellFormed n = true ↔ -(2 ^ 31) ≤ n ∧ n ≤ 2 ^ 31 - 1 := by
  simp [feedWellFormed]

/-- R98: a feed whose values are all in range is read. -/
theorem feedWords_of_inRange : ∀ {l : List Int}, (∀ n ∈ l, -(2 ^ 31) ≤ n ∧ n ≤ 2 ^ 31 - 1) →
    feedWords l = some (l.map (BitVec.ofInt 32))
  | [], _ => rfl
  | n :: rest, h => by
    obtain ⟨hn, hrest⟩ := List.forall_mem_cons.1 h
    rw [feedWords, feedWord_eq, if_pos hn, feedWords_of_inRange hrest, List.map_cons]

/-- R232: a launch whose configuration, lengths and values are fit is accepted. -/
theorem launchFeeds_eq_ok {cfg : Config} {memFeed progFeed : List Int} {m p : List Word}
    (hcfg : cfg.wellFormed = true) (hlen : memFeed.length = cfg.memWords)
    (hm : feedWords memFeed = some m) (hp : feedWords progFeed = some p)
    (hprog : progWellFormed p = true) :
    launchFeeds cfg memFeed progFeed = .ok (State.launch cfg (memoryOf 0 m) p) := by
  simp [launchFeeds, hcfg, hlen, hm, hp, hprog]

/-- Settles O53: the Words of a feed read back as its values, and the image holds Word i at address i;
a feed in range has its Words, so nothing else can refuse the launch. -/
theorem launchCopiesTheFeeds : Obligations.LaunchCopiesTheFeeds := by
  refine fun cfg memFeed progFeed => ⟨fun s h => ?_, fun hcfg hlen short inRange => ?_⟩
  · obtain ⟨m, p, hcfg, hlen, hm, hp, hprog, rfl⟩ := launchFeeds_ok h
    obtain ⟨mem_back, mem_range⟩ := feedWords_some hm
    obtain ⟨prog_back, prog_range⟩ := feedWords_some hp
    have short : progFeed.length ≤ 2 ^ 31 - 1 := by
      rw [← feedWords_length hp]
      exact of_decide_eq_true hprog
    have inRange : ∀ n ∈ memFeed ++ progFeed, -(2 ^ 31) ≤ n ∧ n ≤ 2 ^ 31 - 1 := fun n hn =>
      (feedWellFormed_iff n).1 ((List.mem_append.1 hn).elim (mem_range n) (prog_range n))
    have copied (i : Nat) (hi : i < memFeed.length) :
        ((memoryOf 0 m).read i).toInt = memFeed[i] := by
      rw [memoryOf_read m i (feedWords_length hm ▸ hi)]
      simp only [← mem_back, List.getElem_map]
    exact ⟨rfl, hcfg, hlen, short, inRange, copied, prog_back⟩
  · obtain ⟨mem_range, prog_range⟩ := List.forall_mem_append.1 inRange
    have hprog : progWellFormed (progFeed.map (BitVec.ofInt 32)) = true :=
      decide_eq_true (by rwa [List.length_map])
    exact ⟨_, launchFeeds_eq_ok hcfg hlen (feedWords_of_inRange mem_range)
      (feedWords_of_inRange prog_range) hprog⟩

end Sys2Proof.Proofs
